-- ==== Sys2Proof/Word.lean ====
section
/-! DEFINITION. The bit strings of the record port: a byte of a trace file, a record word, a register
number as a record holds it. Everything else the block keeps is a count, an index or a flag
(spec/10_state.md R24, R56), so it is no bit vector here. -/

namespace Sys2Proof

/-- One byte of a trace stored as bytes (20_memory.md R76). -/
abbrev Byte := BitVec 8

/-- One record word: every record is one 32-bit word (30_encoding.md R90). -/
abbrev Word := BitVec 32

/-- The 7-bit register number of an operand byte (30_encoding.md R92). -/
abbrev RegNum := BitVec 7

end Sys2Proof
end

