-- ==== Sys2Proof/Config.lean ====
section
/-! DEFINITION. The seven configuration parameters (00_scope.md R6). The type carries the spec's
constraints, so a configuration outside them cannot be written down (93_implementation_defined.md U6;
log 2). The state holds the configuration in force (log 1), so every statement about a state is about
every legal configuration. -/

namespace Sys2Proof

/-- SCHED_POLICY: the two scheduling policies (00_scope.md R6). -/
inductive SchedPolicy where
  | inOrder
  | ooo
  deriving DecidableEq, Repr

/-- The parameters of 00_scope.md R6 with their constraints (R6, 70_reset_and_hazards.md R345). -/
structure Config where
  /-- PIPE_WIDTH: lanes of the fetch, decode and schedule latches. -/
  pipeWidth : Nat
  /-- ROB_SIZE: slots of the ROB, and the number of tags. -/
  robSize : Nat
  /-- NUM_ARCH_REGS: entries of the RAT. -/
  numArchRegs : Nat
  /-- EXEQ_SIZE: slots of the EXEQ, 0 allowed. -/
  exeqSize : Nat
  /-- WB_WIDTH: lanes of the execute latch. -/
  wbWidth : Nat
  /-- SCHED_POLICY. -/
  schedPolicy : SchedPolicy
  /-- LOAD_LATENCY: Execute evaluations a load occupies. -/
  loadLatency : Nat
  one_le_pipeWidth : 1 ≤ pipeWidth := by decide
  one_le_robSize : 1 ≤ robSize := by decide
  one_le_numArchRegs : 1 ≤ numArchRegs := by decide
  numArchRegs_le : numArchRegs ≤ 128 := by decide
  pipeWidth_le_wbWidth : pipeWidth ≤ wbWidth := by decide
  one_le_loadLatency : 1 ≤ loadLatency := by decide
  deriving DecidableEq, Repr

/-- TAG_W = max(1, ceil(log2(ROB_SIZE))): the bits that hold a tag in hardware (00_scope.md R7).
`Nat.log2 (n - 1) + 1` is the ceiling of the logarithm for n of 2 or more. -/
def Config.tagWidth (c : Config) : Nat :=
  if c.robSize ≤ 2 then 1 else Nat.log2 (c.robSize - 1) + 1

/-- REG_W: the bits of a register number in the record (00_scope.md R7). -/
def Config.regWidth : Nat := 7

/-- The configuration of `State.reset`. DESIGN CHOICE (log 3): the spec leaves all seven parameters open.
These are the values 95_test_vectors.md uses unless a vector says otherwise, with NUM_ARCH_REGS at 128, the
largest legal value, at which no record is malformed for its register numbers (30_encoding.md R100). -/
def Config.atReset : Config where
  pipeWidth := 1
  robSize := 4
  numArchRegs := 128
  exeqSize := 4
  wbWidth := 4
  schedPolicy := .ooo
  loadLatency := 3

end Sys2Proof
end

