-- ==== Sys2Proof/Syntax.lean ====
section
/-! DEFINITION. The instruction records as a programmer writes them: one constructor per row of
spec/opcode_table.json, each with its three operands (30_encoding.md R91, R96, R104). -/

namespace Sys2Proof

/-- The operation classes (10_state.md R25, 30_encoding.md R93). -/
inductive OpClass where
  | alu
  | ld
  | st
  | cbr
  | other
  deriving DecidableEq, Repr

/-- An operand: a register number, or `none` where the used flag is 0 (written `-`, 30_encoding.md R104). -/
abbrev Operand := Option RegNum

/-- An instruction `<MNEMONIC> d, s1, s2` (30_encoding.md R104). Every combination of used operands is legal
with every class (R96). -/
inductive Instr where
  /-- `ALU d, s1, s2` (48_instruction_classes.md R246). -/
  | alu (d s1 s2 : Operand)
  /-- `LD d, s1, s2` (48_instruction_classes.md R247). -/
  | ld (d s1 s2 : Operand)
  /-- `ST d, s1, s2` (48_instruction_classes.md R248). -/
  | st (d s1 s2 : Operand)
  /-- `CBR d, s1, s2` (48_instruction_classes.md R249). -/
  | cbr (d s1 s2 : Operand)
  /-- `OTHER d, s1, s2` (48_instruction_classes.md R250). -/
  | other (d s1 s2 : Operand)
  deriving DecidableEq, Repr

/-- The class of an instruction. -/
def Instr.op : Instr → OpClass
  | .alu _ _ _ => .alu
  | .ld _ _ _ => .ld
  | .st _ _ _ => .st
  | .cbr _ _ _ => .cbr
  | .other _ _ _ => .other

/-- The destination operand. -/
def Instr.dest : Instr → Operand
  | .alu d _ _ => d
  | .ld d _ _ => d
  | .st d _ _ => d
  | .cbr d _ _ => d
  | .other d _ _ => d

/-- The first source operand. -/
def Instr.src1 : Instr → Operand
  | .alu _ a _ => a
  | .ld _ a _ => a
  | .st _ a _ => a
  | .cbr _ a _ => a
  | .other _ a _ => a

/-- The second source operand. -/
def Instr.src2 : Instr → Operand
  | .alu _ _ b => b
  | .ld _ _ b => b
  | .st _ _ b => b
  | .cbr _ _ b => b
  | .other _ _ b => b

/-- The instruction of a class with three operands. -/
def OpClass.instr : OpClass → Operand → Operand → Operand → Instr
  | .alu => .alu
  | .ld => .ld
  | .st => .st
  | .cbr => .cbr
  | .other => .other

end Sys2Proof
end

