-- ==== Sys2Proof/WellFormed.lean ====
section
/-! DEFINITION. Which instructions a block with `numRegs` architectural registers accepts: every used register
number is below NUM_ARCH_REGS (30_encoding.md R92, R100). An unused operand is never checked (R95). -/

namespace Sys2Proof

/-- An unused operand, or a register number below `numRegs` (30_encoding.md R100). -/
def Operand.inRange (numRegs : Nat) : Operand → Bool
  | none => true
  | some r => decide (r.toNat < numRegs)

/-- All three operands are in range (30_encoding.md R100). -/
def Instr.wellFormed (numRegs : Nat) (i : Instr) : Bool :=
  Operand.inRange numRegs i.dest && Operand.inRange numRegs i.src1 && Operand.inRange numRegs i.src2

end Sys2Proof
end

