-- ==== Sys2Proof/Decode.lean ====
section
/-! DEFINITION. The record encoding (spec/30_encoding.md) both ways: reading a word or a byte stream as an
instruction, total and rejecting by name, and writing an instruction as its canonical word. -/

namespace Sys2Proof

/-- Why a read of the stream gives no instruction. To Fetch all four are one case, end of stream
(30_encoding.md R101); the names tell them apart for a reader. -/
inductive DecodeError where
  /-- The stream holds no byte more (20_memory.md R75). -/
  | endOfStream
  /-- The stream holds 1 to 3 bytes more: a partial record is never delivered (20_memory.md R77). -/
  | partialRecord (bytes : Nat)
  /-- The op code is one of 0x05 .. 0xFF (30_encoding.md R99). -/
  | reservedOpcode (opc : Byte)
  /-- A used register number is NUM_ARCH_REGS or more (30_encoding.md R100). -/
  | registerOutOfRange (i : Instr)
  deriving DecidableEq, Repr

/-! ## Fields of a record word (30_encoding.md R91, R92) -/

/-- `opc`, bits 7:0. -/
def opcField (w : Word) : Byte := w.extractLsb' 0 8

/-- The destination byte, bits 15:8: `rd_used` above `rd`. -/
def rdByte (w : Word) : Byte := w.extractLsb' 8 8

/-- The source-1 byte, bits 23:16: `rs1_used` above `rs1`. -/
def rs1Byte (w : Word) : Byte := w.extractLsb' 16 8

/-- The source-2 byte, bits 31:24: `rs2_used` above `rs2`. -/
def rs2Byte (w : Word) : Byte := w.extractLsb' 24 8

/-- An operand byte: bit 7 is the used flag, bits 6:0 the register number, ignored where the flag is 0
(30_encoding.md R92, R95). -/
def operandOf (b : Byte) : Operand :=
  if b.getLsbD 7 then some (b.extractLsb' 0 7) else none

/-! ## Op codes (30_encoding.md R93, R98, R99) -/

/-- The op code of a class (30_encoding.md R93; the numbers are the spec's own, log 16). -/
def OpClass.code : OpClass → Byte
  | .alu => 0x00#8
  | .ld => 0x01#8
  | .st => 0x02#8
  | .cbr => 0x03#8
  | .other => 0x04#8

/-- The class an op code selects; none for the reserved codes 0x05 .. 0xFF (30_encoding.md R93, R99). -/
def classOf (c : Byte) : Option OpClass :=
  if c = 0x00#8 then some .alu
  else if c = 0x01#8 then some .ld
  else if c = 0x02#8 then some .st
  else if c = 0x03#8 then some .cbr
  else if c = 0x04#8 then some .other
  else none

/-- One row of spec/opcode_table.json: the words with `w &&& mask = pattern` are the class's. -/
structure OpcodeRow where
  mask : Word
  pattern : Word
  cls : OpClass
  deriving DecidableEq, Repr

/-- The five rows of the mask and match table (30_encoding.md R98). -/
def opcodeRows : List OpcodeRow :=
  [⟨0x000000FF#32, 0x00000000#32, .alu⟩, ⟨0x000000FF#32, 0x00000001#32, .ld⟩,
   ⟨0x000000FF#32, 0x00000002#32, .st⟩, ⟨0x000000FF#32, 0x00000003#32, .cbr⟩,
   ⟨0x000000FF#32, 0x00000004#32, .other⟩]

/-- The row of the mask and match table a word selects (30_encoding.md R98). -/
def rowOf (w : Word) : Option OpcodeRow :=
  opcodeRows.find? (fun r => decide (w &&& r.mask = r.pattern))

/-! ## Reading a record -/

/-- The instruction of a word, before the register-range check (30_encoding.md R94). -/
def decodeWord (w : Word) : Except DecodeError Instr :=
  match classOf (opcField w) with
  | some op => .ok (op.instr (operandOf (rdByte w)) (operandOf (rs1Byte w)) (operandOf (rs2Byte w)))
  | none => .error (.reservedOpcode (opcField w))

/-- The instruction of a word for a block with `numRegs` registers; an error is a malformed word
(30_encoding.md R99, R100). -/
def decodeRecord (numRegs : Nat) (w : Word) : Except DecodeError Instr :=
  match decodeWord w with
  | .ok i => if i.wellFormed numRegs then .ok i else .error (.registerOutOfRange i)
  | .error e => .error e

/-- malformed(w) (30_encoding.md R99, R100). -/
def malformed (numRegs : Nat) (w : Word) : Bool :=
  match decodeRecord numRegs w with
  | .ok _ => false
  | .error _ => true

/-- The word of four bytes, the first the least significant (20_memory.md R76). -/
def wordOfBytes (b0 b1 b2 b3 : Byte) : Word := b3 ++ (b2 ++ (b1 ++ b0))

/-- The four bytes of a word in stream order (20_memory.md R76). -/
def bytesOfWord (w : Word) : List Byte := [opcField w, rdByte w, rs1Byte w, rs2Byte w]

/-- The record words of a byte stream: record k is bytes 4k .. 4k+3, and 1 to 3 trailing bytes are no record
(20_memory.md R76, R77). -/
def wordsOfBytes : List Byte → List Word
  | b0 :: b1 :: b2 :: b3 :: rest => wordOfBytes b0 b1 b2 b3 :: wordsOfBytes rest
  | _ => []

/-- Decoding a byte stream: the first record's instruction and the bytes after it, or the reason there is none.
Total on any bytes. -/
def decodeBytes (numRegs : Nat) : List Byte → Except DecodeError (Instr × List Byte)
  | b0 :: b1 :: b2 :: b3 :: rest =>
    match decodeRecord numRegs (wordOfBytes b0 b1 b2 b3) with
    | .ok i => .ok (i, rest)
    | .error e => .error e
  | [] => .error .endOfStream
  | bs => .error (.partialRecord bs.length)

/-- The `n` bytes of a number, least significant first. -/
def bytesOfNat : Nat → Nat → List Byte
  | 0, _ => []
  | n + 1, w => BitVec.ofNat 8 w :: bytesOfNat n (w / 256)

/-- The instruction the decoder reads from a table row's bits (numbered as spec/opcode_table.json numbers them),
laid out as the trace stores them. A record has 4 bytes; bits above `nbits` are 0. The register range is that of the
record's 7-bit field: a smaller NUM_ARCH_REGS is the configuration's, not the table's (30_encoding.md R98; DESIGN CHOICE,
log 19). -/
def decodeTableWord (nbits w : Nat) : Option Instr :=
  match decodeBytes 128 (bytesOfNat 4 (w % 2 ^ nbits)) with
  | .ok (i, _) => some i
  | .error _ => none

/-! ## Writing a record (30_encoding.md R106) -/

/-- `opnd`: 0x00 for an unused operand, 0x80 | r for register r (30_encoding.md R106). -/
def opnd : Operand → Byte
  | none => 0x00#8
  | some r => 1#1 ++ r

/-- The canonical word of an instruction (30_encoding.md R106). -/
def encode (i : Instr) : Word := opnd i.src2 ++ (opnd i.src1 ++ (opnd i.dest ++ i.op.code))

/-- A word whose unused operand bytes are zero (30_encoding.md R95, R106). -/
def canonical (w : Word) : Bool :=
  [rdByte w, rs1Byte w, rs2Byte w].all (fun b => b.getLsbD 7 || b == 0x00#8)

end Sys2Proof
end

