-- ==== Sys2Proof/Machine/State.lean ====
section
/-! DEFINITION. The state of the block: every piece of storage of spec/10_state.md under its own name, the trace
stream at its input port, and the configuration the block was built with. Plain data: counts and indices are
naturals, arrays are lists whose lengths `Machine.wellShaped` holds to the configuration. -/

namespace Sys2Proof.Machine

/-- The internal instruction record (10_state.md R23, R24). `none` is the sentinel NONE (00_scope.md R11). -/
structure Inst where
  /-- Program-order key, 1 or more once fetched; 64 bits in hardware, unbounded here (R27; log 10). -/
  seq : Nat
  /-- Operation class (R25). -/
  op : OpClass
  /-- Destination register, or not used. -/
  dest : Option Nat
  /-- First source register, or not used. -/
  src1 : Option Nat
  /-- Second source register, or not used. -/
  src2 : Option Nat
  /-- Tag of the in-flight producer of `src1` found at issue. -/
  src1Tag : Option Nat
  /-- Tag of the in-flight producer of `src2` found at issue. -/
  src2Tag : Option Nat
  /-- The instruction's own tag: the ROB slot it occupies; NONE before Issue (R26). -/
  drTag : Option Nat
  /-- First operand resolved. -/
  src1Ready : Bool
  /-- Second operand resolved. -/
  src2Ready : Bool
  /-- Remaining execute cycles, counted in the EXEQ's copy only. -/
  wait : Nat
  deriving DecidableEq, Repr

/-- What the `inst` field of an invalid slot or lane holds after reset. DESIGN CHOICE (log 4): the spec leaves it
unspecified and no rule reads it (10_state.md R61, 70_reset_and_hazards.md R342). -/
def Inst.blank : Inst :=
  { seq := 0, op := .alu, dest := none, src1 := none, src2 := none, src1Tag := none, src2Tag := none,
    drTag := none, src1Ready := false, src2Ready := false, wait := 0 }

/-- One lane of a latch (10_state.md R43). -/
structure Lane where
  valid : Bool
  /-- Read by Fetch and Decode, written by nothing (10_state.md R44; log 12). -/
  stall : Bool
  inst : Inst
  deriving DecidableEq, Repr

/-- One ROB slot (10_state.md R33). -/
structure RobSlot where
  valid : Bool
  /-- Selected by the scheduler, not re-selectable. -/
  exec : Bool
  /-- Result produced and broadcast, eligible to commit. -/
  ready : Bool
  inst : Inst
  deriving DecidableEq, Repr

/-- One EXEQ slot; its countdown is `inst.wait` (10_state.md R39). -/
structure ExeqSlot where
  valid : Bool
  inst : Inst
  deriving DecidableEq, Repr

/-- An empty lane as reset leaves it (10_state.md R61). -/
def Lane.empty : Lane := { valid := false, stall := false, inst := .blank }

/-- An empty ROB slot as reset leaves it (10_state.md R61). -/
def RobSlot.empty : RobSlot := { valid := false, exec := false, ready := false, inst := .blank }

/-- An empty EXEQ slot as reset leaves it (10_state.md R61). -/
def ExeqSlot.empty : ExeqSlot := { valid := false, inst := .blank }

/-- The fault codes (60_exceptions.md R301). Raising one writes the block's `fault` register and ends the tick
(`Machine.raise`); it is a next state of the machine, not an end of the model (log 9). -/
inductive FaultCode where
  | exeqOverflow
  | robInsertFull
  | robRemoveNotReady
  | schedAlreadyExecuting
  | staleTag
  deriving DecidableEq, Repr

/-- The number of a fault code (60_exceptions.md R301). -/
def FaultCode.number : FaultCode → Nat
  | .exeqOverflow => 1
  | .robInsertFull => 2
  | .robRemoveNotReady => 3
  | .schedAlreadyExecuting => 4
  | .staleTag => 5

/-- The whole state (10_state.md R20 to R61, and the trace stream of R59). -/
structure State where
  /-- The configuration the block was built with; no stage writes it (00_scope.md R6, 10_state.md R57; log 1). -/
  cfg : Config
  /-- RAT[r]: the tag of the youngest in-flight writer of r, or NONE (R30). -/
  rat : List (Option Nat)
  /-- ROB[t] (R33). -/
  rob : List RobSlot
  /-- Slot of the oldest uncommitted instruction (R34). -/
  robHead : Nat
  /-- Slot for the next issue (R34). -/
  robTail : Nat
  /-- EXEQ[q] (R39). -/
  exeq : List ExeqSlot
  /-- FE, the fetch latch (R42). -/
  latchFE : List Lane
  /-- ID, the decode latch (R42). -/
  latchID : List Lane
  /-- SC, the schedule latch (R42). -/
  latchSC : List Lane
  /-- EX, the execute latch (R42). -/
  latchEX : List Lane
  /-- Sequence number of the most recently fetched instruction, 0 if none (R48). -/
  lastSeq : Nat
  /-- A fetch attempt has met the end of the stream (R49). -/
  eosSeen : Bool
  /-- The halt threshold, meaningful while `eosSeen` (R50). -/
  haltSeq : Nat
  /-- The run has ended (R51). -/
  halted : Bool
  /-- The fault register (R53). -/
  fault : Option FaultCode
  /-- Ticks evaluated since reset (R54). -/
  cycleCount : Nat
  /-- Instructions committed since reset (R55). -/
  retiredCount : Nat
  /-- The trace stream: the record words the source delivers (R59, 20_memory.md R75; log 11). -/
  trace : List Word
  /-- The stream's read position (R59, 20_memory.md R75). -/
  tracePos : Nat
  deriving DecidableEq, Repr

/-- Why the model stops. -/
inductive Fault where
  /-- Raised by `Machine.clock` before a tick when the State is none of the hardware's: an array has another length
  than the configuration gives it, or an index lies outside its array (10_state.md R24, R30, R34; 20_memory.md R71).
  No run from reset meets it. Safe: the model stops where the spec describes no machine (log 5). -/
  | notAMachineState
  deriving DecidableEq, Repr

/-- Why an instruction has no meaning. -/
inductive Refusal where
  /-- Raised by an arm of `exec` that has no meaning yet; no arm does. Safe. -/
  | notModelled (mnemonic : String)
  deriving DecidableEq, Repr

/-- Reset is a function from the configuration and the trace to the initial state (10_state.md R61,
70_reset_and_hazards.md R340). -/
def State.resetWith (cfg : Config) (trace : List Word) : State where
  cfg := cfg
  rat := List.replicate cfg.numArchRegs none
  rob := List.replicate cfg.robSize .empty
  robHead := 0
  robTail := 0
  exeq := List.replicate cfg.exeqSize .empty
  latchFE := List.replicate cfg.pipeWidth .empty
  latchID := List.replicate cfg.pipeWidth .empty
  latchSC := List.replicate cfg.pipeWidth .empty
  latchEX := List.replicate cfg.wbWidth .empty
  lastSeq := 0
  eosSeen := false
  haltSeq := 0
  halted := false
  fault := none
  cycleCount := 0
  retiredCount := 0
  trace := trace
  tracePos := 0

/-- The machine right after reset with the configuration of log 3 and no record in the stream: the trace comes from
outside the machine (log 6). -/
def State.reset : State := State.resetWith Config.atReset []

/-! ## Named updates -/

/-- `RAT[r] <- v`. -/
def State.setRat (s : State) (r : Nat) (v : Option Nat) : State := { s with rat := s.rat.set r v }

/-- `ROB[t] <- x`. -/
def State.setRob (s : State) (t : Nat) (x : RobSlot) : State := { s with rob := s.rob.set t x }

/-- `EXEQ[q] <- x`. -/
def State.setExeq (s : State) (q : Nat) (x : ExeqSlot) : State := { s with exeq := s.exeq.set q x }

/-- `FE[i] <- x`. -/
def State.setFE (s : State) (i : Nat) (x : Lane) : State := { s with latchFE := s.latchFE.set i x }

/-- `ID[i] <- x`. -/
def State.setID (s : State) (i : Nat) (x : Lane) : State := { s with latchID := s.latchID.set i x }

/-- `SC[i] <- x`. -/
def State.setSC (s : State) (i : Nat) (x : Lane) : State := { s with latchSC := s.latchSC.set i x }

/-- `EX[k] <- x`. -/
def State.setEX (s : State) (k : Nat) (x : Lane) : State := { s with latchEX := s.latchEX.set k x }

/-- `fault <- code`. -/
def State.setFault (s : State) (c : FaultCode) : State := { s with fault := some c }

/-! ## Reading the arrays. Outside an array there is an empty slot, an empty lane, no mapping; a state that would read
there is no machine state (log 5). -/

/-- `RAT[r]`. -/
def State.ratAt (s : State) (r : Nat) : Option Nat := s.rat.getD r none

/-- `ROB[t]`. -/
def State.robAt (s : State) (t : Nat) : RobSlot := s.rob.getD t .empty

/-- `EXEQ[q]`. -/
def State.exeqAt (s : State) (q : Nat) : ExeqSlot := s.exeq.getD q .empty

/-- `FE[i]`. -/
def State.feAt (s : State) (i : Nat) : Lane := s.latchFE.getD i .empty

/-- `ID[i]`. -/
def State.idAt (s : State) (i : Nat) : Lane := s.latchID.getD i .empty

/-- `SC[i]`. -/
def State.scAt (s : State) (i : Nat) : Lane := s.latchSC.getD i .empty

/-- `EX[k]`. -/
def State.exAt (s : State) (k : Nat) : Lane := s.latchEX.getD k .empty

end Sys2Proof.Machine
end

