-- ==== Sys2Proof/Machine/Latency.lean ====
section
/-! DEFINITION. LAT, the only behaviour that depends on the operation class (00_scope.md R7, 10_state.md R25). -/

namespace Sys2Proof.Machine

/-- LAT(op): the Execute evaluations an instruction of the class occupies (00_scope.md R7, 30_encoding.md R93). -/
def lat (cfg : Config) : OpClass → Nat
  | .alu => 1
  | .ld => cfg.loadLatency
  | .st => 1
  | .cbr => 1
  | .other => 1

end Sys2Proof.Machine
end

