-- ==== Sys2Proof/Machine/Flags.lean ====
section
/-! DEFINITION. The tests the stages make on the state's flags and indices (10_state.md R56): occupancy of the ROB,
the EXEQ and the latches, readiness, program order and age. None of them writes anything. -/

namespace Sys2Proof.Machine

/-! ## Reorder buffer -/

/-- `(t + 1) mod ROB_SIZE` (41_rob.md). -/
def nextSlot (s : State) (t : Nat) : Nat := (t + 1) % s.cfg.robSize

/-- `ROB.has_space()`: the tail slot is free (41_rob.md R131). -/
def robHasSpace (s : State) : Bool := !(s.robAt s.robTail).valid

/-- `ROB.head_is_ready()` (41_rob.md R138). -/
def robHeadIsReady (s : State) : Bool := (s.robAt s.robHead).valid && (s.robAt s.robHead).ready

/-- rob_count: the number of valid slots (10_state.md R35). -/
def robCount (s : State) : Nat := s.rob.countP (fun x => x.valid)

/-- `rob_order()`: the valid slots from oldest to youngest (41_rob.md R141). -/
def robOrder (s : State) : List Nat :=
  ((List.range s.cfg.robSize).map (fun k => (s.robHead + k) % s.cfg.robSize)).filter (fun t => (s.robAt t).valid)

/-- candidate(t): valid and non-executing (45_schedule.md R202). -/
def candidate (s : State) (t : Nat) : Bool := (s.robAt t).valid && !(s.robAt t).exec

/-- operands_ready(t): both sources ready (45_schedule.md R202). -/
def operandsReady (s : State) (t : Nat) : Bool := (s.robAt t).inst.src1Ready && (s.robAt t).inst.src2Ready

/-- In-order selection over a program-order list of slots: executing slots are passed over, the first other slot is
taken if its operands are ready and blocks otherwise (45_schedule.md R203, R206). -/
def firstInOrder (s : State) : List Nat → Option Nat
  | [] => none
  | t :: ts =>
    if (s.robAt t).exec then firstInOrder s ts
    else if operandsReady s t then some t
    else none

/-- `select_in_order()` (45_schedule.md R203). -/
def selectInOrder (s : State) : Option Nat := firstInOrder s (robOrder s)

/-- `select_ooo()`: the oldest candidate whose operands are ready (45_schedule.md R204). -/
def selectOoo (s : State) : Option Nat := (robOrder s).find? (fun t => candidate s t && operandsReady s t)

/-- `select()`: the configured policy's choice (45_schedule.md R201). -/
def select (s : State) : Option Nat :=
  match s.cfg.schedPolicy with
  | .inOrder => selectInOrder s
  | .ooo => selectOoo s

/-! ## Age -/

/-- The smallest key of a list with its index counted from `k`; the first where several are smallest
(DESIGN CHOICE, log 13: no two instructions share a key). -/
def oldestFrom : Nat → List (Option Nat) → Option (Nat × Nat)
  | _, [] => none
  | k, none :: xs => oldestFrom (k + 1) xs
  | k, some a :: xs =>
    match oldestFrom (k + 1) xs with
    | none => some (a, k)
    | some (b, j) => if a ≤ b then some (a, k) else some (b, j)

/-- `oldest(S)` for a list in which `some seq` marks the members of S: the index of the smallest `seq`
(00_scope.md R12). -/
def oldest (keys : List (Option Nat)) : Option Nat := (oldestFrom 0 keys).map Prod.snd

/-- The oldest valid lane of a latch (43_driver_frontend.md R175, 44_issue_rename.md R186). -/
def oldestLane (latch : List Lane) : Option Nat :=
  oldest (latch.map (fun l => if l.valid then some l.inst.seq else none))

/-! ## Execution queue and execute latch -/

/-- A slot holds a finished instruction: valid with `wait = 0` (42_exeq.md R155). -/
def ExeqSlot.finished (x : ExeqSlot) : Bool := x.valid && x.inst.wait == 0

/-- `EXEQ.has_finished()` (42_exeq.md R155). -/
def exeqHasFinished (s : State) : Bool := s.exeq.any ExeqSlot.finished

/-- The lowest-numbered free EXEQ slot (42_exeq.md R152). -/
def freeExeqSlot (s : State) : Option Nat := s.exeq.findIdx? (fun x => !x.valid)

/-- The oldest finished EXEQ slot (42_exeq.md R157). -/
def oldestFinished (s : State) : Option Nat :=
  oldest (s.exeq.map (fun x => if ExeqSlot.finished x then some x.inst.seq else none))

/-- The lowest execute-latch lane without an instruction (46_execute_writeback.md R220). -/
def freeExLane (s : State) : Option Nat := s.latchEX.findIdx? (fun l => !l.valid)

/-! ## Latches and run state -/

/-- How many lanes of a latch hold an instruction. -/
def laneCount (latch : List Lane) : Nat := latch.countP (fun l => l.valid)

/-- The run state `running` (60_exceptions.md R315): neither halted nor faulted. -/
def running (s : State) : Bool := !s.halted && s.fault.isNone

/-! ## The shape of a machine state (10_state.md R24, R30, R34, R42; 20_memory.md R71) -/

/-- A NONE, or an index below `n`. -/
def optBelow (n : Nat) : Option Nat → Bool
  | none => true
  | some k => decide (k < n)

/-- The fields of an instruction record lie in the ranges of 10_state.md R24. -/
def instInRange (cfg : Config) (x : Inst) : Bool :=
  optBelow cfg.numArchRegs x.dest && optBelow cfg.numArchRegs x.src1 && optBelow cfg.numArchRegs x.src2 &&
  optBelow cfg.robSize x.src1Tag && optBelow cfg.robSize x.src2Tag && optBelow cfg.robSize x.drTag &&
  decide (x.wait ≤ cfg.loadLatency)

/-- A latch has `n` lanes, and the instructions it holds are in range. -/
def latchInRange (cfg : Config) (n : Nat) (latch : List Lane) : Bool :=
  latch.length == n && latch.all (fun l => !l.valid || instInRange cfg l.inst)

/-- The arrays have the configured sizes and every index and live record lies in its range. -/
def wellShaped (s : State) : Bool :=
  s.rat.length == s.cfg.numArchRegs && s.rat.all (optBelow s.cfg.robSize) &&
  s.rob.length == s.cfg.robSize && s.rob.all (fun x => !x.valid || instInRange s.cfg x.inst) &&
  decide (s.robHead < s.cfg.robSize) && decide (s.robTail < s.cfg.robSize) &&
  s.exeq.length == s.cfg.exeqSize && s.exeq.all (fun x => !x.valid || instInRange s.cfg x.inst) &&
  latchInRange s.cfg s.cfg.pipeWidth s.latchFE && latchInRange s.cfg s.cfg.pipeWidth s.latchID &&
  latchInRange s.cfg s.cfg.pipeWidth s.latchSC && latchInRange s.cfg s.cfg.wbWidth s.latchEX

end Sys2Proof.Machine
end

