-- ==== Sys2Proof/Machine/Ops.lean ====
section
/-! DEFINITION. The named operations on the RAT (spec/40_rat.md), the ROB (spec/41_rob.md) and the EXEQ
(spec/42_exeq.md), and raising a fault (60_exceptions.md R303), the one exception this block has. There is no
return from a fault (R305). -/

namespace Sys2Proof.Machine

/-! ## Raising a fault -/

/-- What an operation inside a tick comes to: it goes on with a value and a state, or a fault has been raised and the
tick ends at that state (43_driver_frontend.md R167). -/
inductive Res (α : Type) where
  | ok (a : α) (s : State)
  | raised (s : State)

/-- One operation after another; nothing follows a raised fault. -/
def Res.bind {α β : Type} (x : Res α) (f : α → State → Res β) : Res β :=
  match x with
  | .ok a s => f a s
  | .raised s => .raised s

/-- The state an operation leaves, whether or not a fault was raised. -/
def Res.state {α : Type} : Res α → State
  | .ok _ s => s
  | .raised s => s

/-- `raise Fault(code)`: the fault register takes the code, the updates made earlier in the tick stay, and the tick ends
here (60_exceptions.md R303, 43_driver_frontend.md R167). Nothing else is saved and control goes nowhere. -/
def raise {α : Type} (c : FaultCode) (s : State) : Res α := .raised (s.setFault c)

/-- A stage's step for each lane, in the order of the list; a fault ends the loop. -/
def forLanes (f : Nat → State → Res Unit) : List Nat → State → Res Unit
  | [], s => .ok () s
  | k :: ks, s => (f k s).bind (fun _ s' => forLanes f ks s')

/-! ## Register alias table -/

/-- `RAT.get_remap(reg)` (40_rat.md R121). -/
def ratGetRemap (r : Nat) (s : State) : Option Nat := s.ratAt r

/-- `RAT.set_remap(reg, tag)`: unconditional, last writer wins (40_rat.md R122). -/
def ratSetRemap (r t : Nat) (s : State) : State := s.setRat r (some t)

/-- `RAT.reset(reg, tag)`: clears the mapping only if it still points to the caller's tag (40_rat.md R123). -/
def ratReset (r t : Nat) (s : State) : State :=
  if s.ratAt r = some t then s.setRat r none else s

/-! ## Reorder buffer -/

/-- `ROB.insert(inst)`: appends at the tail, not ready and not executing, with the slot as the own tag; fault 2 without
space (41_rob.md R132). -/
def robInsert (x : Inst) (s : State) : Res Nat :=
  if robHasSpace s then
    .ok s.robTail
      { s.setRob s.robTail
          { valid := true, exec := false, ready := false, inst := { x with drTag := some s.robTail } } with
        robTail := nextSlot s s.robTail }
  else raise .robInsertFull s

/-- `ROB.mark_executing(t)`: fault 4 on an empty or executing slot (41_rob.md R134). -/
def robMarkExecuting (t : Nat) (s : State) : Res Unit :=
  if candidate s t then .ok () (s.setRob t { s.robAt t with exec := true })
  else raise .schedAlreadyExecuting s

/-- `ROB.is_ready(t)`: fault 5 on an empty slot (41_rob.md R135). -/
def robIsReady (t : Nat) (s : State) : Res Bool :=
  if (s.robAt t).valid then .ok (s.robAt t).ready s else raise .staleTag s

/-- `ROB.mark_ready(t)`: fault 5 on an empty slot; `exec` stays (41_rob.md R136). -/
def robMarkReady (t : Nat) (s : State) : Res Unit :=
  if (s.robAt t).valid then .ok () (s.setRob t { s.robAt t with ready := true }) else raise .staleTag s

/-- What a broadcast of tag `t` does to one slot: the ready flag of each source that waits on `t` is set, the tags stay,
and an invalid slot is not touched (41_rob.md R137). -/
def wakeSlot (t : Nat) (x : RobSlot) : RobSlot :=
  if x.valid then
    { x with inst :=
        { x.inst with
          src1Ready := x.inst.src1Ready || decide (x.inst.src1Tag = some t)
          src2Ready := x.inst.src2Ready || decide (x.inst.src2Tag = some t) } }
  else x

/-- `ROB.wakeup(t)`: the broadcast reaches every valid slot (41_rob.md R137). -/
def robWakeup (t : Nat) (s : State) : State := { s with rob := s.rob.map (wakeSlot t) }

/-- `ROB.remove_head()`: fault 3 unless the head is valid and ready; the three flags are cleared and the record stays
behind as stale data (41_rob.md R140; log 18). -/
def robRemoveHead (s : State) : Res Inst :=
  if robHeadIsReady s then
    .ok (s.robAt s.robHead).inst
      { s.setRob s.robHead { s.robAt s.robHead with valid := false, exec := false, ready := false } with
        robHead := nextSlot s s.robHead }
  else raise .robRemoveNotReady s

/-! ## Execution queue -/

/-- `EXEQ.insert(inst)`: the lowest free slot with the countdown at LAT; fault 1 when every slot is taken
(42_exeq.md R152). -/
def exeqInsert (x : Inst) (s : State) : Res Unit :=
  match freeExeqSlot s with
  | none => raise .exeqOverflow s
  | some q => .ok () (s.setExeq q { valid := true, inst := { x with wait := lat s.cfg x.op } })

/-- One tick of a slot's countdown, saturating at 0 (42_exeq.md R154). -/
def ageSlot (x : ExeqSlot) : ExeqSlot :=
  if x.valid then { x with inst := { x.inst with wait := x.inst.wait - 1 } } else x

/-- `EXEQ.cycle()` (42_exeq.md R154). -/
def exeqCycle (s : State) : State := { s with exeq := s.exeq.map ageSlot }

/-- `EXEQ.remove_finished()`: the oldest finished record and the state without it; none where nothing is finished, in
which case the spec gives no call (42_exeq.md R157, 93_implementation_defined.md U17; DESIGN CHOICE, log 14). -/
def exeqRemoveFinished (s : State) : Option (Inst × State) :=
  match oldestFinished s with
  | none => none
  | some q => some ((s.exeqAt q).inst, s.setExeq q { s.exeqAt q with valid := false })

end Sys2Proof.Machine
end

