-- ==== Sys2Proof/Machine/Operands.lean ====
section
/-! DEFINITION. The operand forms: what Fetch makes of an instruction's operands (30_encoding.md R94), how Issue
resolves a source against the RAT (44_issue_rename.md R187), and how it renames a destination (R189). -/

namespace Sys2Proof.Machine

/-- A register operand as an index into the RAT (`zext` of 30_encoding.md R94). -/
def regIndex : Operand → Option Nat
  | none => none
  | some r => some r.toNat

/-- `decode_record`: the internal record of a fetched instruction with its sequence number (30_encoding.md R94). -/
def fetchedInst (q : Nat) (i : Instr) : Inst where
  seq := q
  op := i.op
  dest := regIndex i.dest
  src1 := regIndex i.src1
  src2 := regIndex i.src2
  src1Tag := none
  src2Tag := none
  drTag := none
  src1Ready := false
  src2Ready := false
  wait := 0

/-- The tag and the ready flag of one source: unused and unmapped sources are ready with no tag; a mapped one takes the
tag and whatever the ROB reports for it (44_issue_rename.md R187). -/
def resolveSource (src : Option Nat) (s : State) : Res (Option Nat × Bool) :=
  match src with
  | none => .ok (none, true) s
  | some r =>
    match ratGetRemap r s with
    | none => .ok (none, true) s
    | some m => (robIsReady m s).bind (fun rdy s' => .ok (some m, rdy) s')

/-- Both sources of an instruction resolved against the RAT as it stands (44_issue_rename.md R187). -/
def resolveSources (x : Inst) (s : State) : Res Inst :=
  (resolveSource x.src1 s).bind fun a s1 =>
    (resolveSource x.src2 s1).bind fun b s2 =>
      .ok { x with src1Tag := a.1, src1Ready := a.2, src2Tag := b.1, src2Ready := b.2 } s2

/-- The destination's rename: a written register maps to the new tag, an instruction without destination leaves the RAT
alone (44_issue_rename.md R189). -/
def renameDest (dest : Option Nat) (t : Nat) (s : State) : State :=
  match dest with
  | none => s
  | some d => ratSetRemap d t s

/-- The RAT clean-up of a committed instruction, by its own tag (47_commit.md R237); a record without one clears nothing
(DEDUCED, log 15, unreachable). -/
def clearDest (x : Inst) (s : State) : State :=
  match x.dest, x.drTag with
  | some d, some t => ratReset d t s
  | _, _ => s

end Sys2Proof.Machine
end

