-- ==== Sys2Proof/Machine/Stages.lean ====
section
/-! DEFINITION. The seven stages and the tick (spec/43_driver_frontend.md to spec/47_commit.md). A stage is evaluated
on the state exactly as the stage before it in the order Commit, Writeback, Execute, Schedule, Issue, Decode, Fetch left
it (20_memory.md R79). -/

namespace Sys2Proof.Machine

/-! ## Commit (spec/47_commit.md) -/

/-- What retiring one removed instruction does: the count, the RAT clean-up, the halt (47_commit.md R236 to R238). -/
def retire (x : Inst) (s : State) : State :=
  let s1 := clearDest x { s with retiredCount := s.retiredCount + 1 }
  if s1.eosSeen && decide (s1.haltSeq ≤ x.seq) then { s1 with halted := true } else s1

/-- Up to `n` commits while the head is ready (47_commit.md R236). -/
def commitUpTo : Nat → State → Res Unit
  | 0, s => .ok () s
  | n + 1, s =>
    if robHeadIsReady s then
      (robRemoveHead s).bind (fun x s1 => commitUpTo n (retire x s1))
    else .ok () s

/-- `Commit()` (47_commit.md R236). -/
def commit (s : State) : Res Unit := commitUpTo s.cfg.pipeWidth s

/-! ## Writeback (spec/46_execute_writeback.md section 2) -/

/-- One execute-latch lane: its ROB entry becomes ready, its tag is broadcast, the lane is emptied
(46_execute_writeback.md R226). A record without a tag of its own names no slot: fault 5 (DEDUCED, log 7, unreachable). -/
def writebackLane (k : Nat) (s : State) : Res Unit :=
  if (s.exAt k).valid then
    match (s.exAt k).inst.drTag with
    | none => raise .staleTag s
    | some t =>
      (robMarkReady t s).bind fun _ s1 =>
        let s2 := robWakeup t s1
        .ok () (s2.setEX k { s2.exAt k with valid := false })
  else .ok () s

/-- `Writeback()` (46_execute_writeback.md R226). -/
def writeback (s : State) : Res Unit := forLanes writebackLane (List.range s.cfg.wbWidth) s

/-! ## Execute (spec/46_execute_writeback.md section 1) -/

/-- An instruction placed in an execute-latch lane. -/
def putEX (k : Nat) (x : Inst) (s : State) : State := s.setEX k { s.exAt k with valid := true, inst := x }

/-- A schedule-latch lane emptied. -/
def emptySC (i : Nat) (s : State) : State := s.setSC i { s.scAt i with valid := false }

/-- Step 1 for one lane: a single-cycle instruction passes to the execute latch; with no free lane it stays
(46_execute_writeback.md R220, R221). -/
def bypassLane (i : Nat) (s : State) : Res Unit :=
  if (s.scAt i).valid && lat s.cfg (s.scAt i).inst.op == 1 then
    match freeExLane s with
    | none => .ok () s
    | some k => .ok () (emptySC i (putEX k (s.scAt i).inst s))
  else .ok () s

/-- Step 2 for one lane: a multi-cycle instruction enters the EXEQ (46_execute_writeback.md R220, R221). -/
def enqueueLane (i : Nat) (s : State) : Res Unit :=
  if (s.scAt i).valid && decide (1 < lat s.cfg (s.scAt i).inst.op) then
    (exeqInsert (s.scAt i).inst s).bind (fun _ s1 => .ok () (emptySC i s1))
  else .ok () s

/-- Step 4: finished instructions move to free execute-latch lanes, oldest first, while there are both. Each move takes a
lane, so the latch's length bounds the moves (46_execute_writeback.md R220). -/
def drainUpTo : Nat → State → State
  | 0, s => s
  | n + 1, s =>
    match freeExLane s with
    | none => s
    | some k =>
      match exeqRemoveFinished s with
      | none => s
      | some (x, s1) => drainUpTo n (putEX k x s1)

/-- `Execute()`: bypass, enqueue, age, drain, in this order (46_execute_writeback.md R220). -/
def execute (s : State) : Res Unit :=
  (forLanes bypassLane (List.range s.cfg.pipeWidth) s).bind fun _ s1 =>
    (forLanes enqueueLane (List.range s.cfg.pipeWidth) s1).bind fun _ s2 =>
      .ok () (drainUpTo s2.latchEX.length (exeqCycle s2))

/-! ## Schedule (spec/45_schedule.md) -/

/-- One schedule-latch lane: an empty lane takes a copy of the selected slot's record, which is marked executing
(45_schedule.md R201, R207). -/
def scheduleLane (i : Nat) (s : State) : Res Unit :=
  if (s.scAt i).valid then .ok () s
  else
    match select s with
    | none => .ok () s
    | some t =>
      (robMarkExecuting t s).bind fun _ s1 =>
        .ok () (s1.setSC i { s1.scAt i with valid := true, inst := (s1.robAt t).inst })

/-- `Schedule()` (45_schedule.md R201). -/
def schedule (s : State) : Res Unit := forLanes scheduleLane (List.range s.cfg.pipeWidth) s

/-! ## Issue (spec/44_issue_rename.md) -/

/-- One instruction issued from decode lane `j`: sources resolved, then inserted, then its destination renamed, and the
lane emptied (44_issue_rename.md R186, R189). -/
def issueOne (j : Nat) (s : State) : Res Unit :=
  (resolveSources (s.idAt j).inst s).bind fun x s1 =>
    (robInsert x s1).bind fun t s2 =>
      let s3 := renameDest x.dest t s2
      .ok () (s3.setID j { s3.idAt j with valid := false })

/-- Up to `n` issues, oldest decoded instruction first, while the ROB has space (44_issue_rename.md R186). -/
def issueUpTo : Nat → State → Res Unit
  | 0, s => .ok () s
  | n + 1, s =>
    if robHasSpace s then
      match oldestLane s.latchID with
      | none => .ok () s
      | some j => (issueOne j s).bind (fun _ s1 => issueUpTo n s1)
    else .ok () s

/-- `Issue()` (44_issue_rename.md R186). -/
def issue (s : State) : Res Unit := issueUpTo s.cfg.pipeWidth s

/-! ## Decode (43_driver_frontend.md section 3) -/

/-- The instruction of fetch lane `j` moved, unchanged, to decode lane `i`. -/
def moveToID (i j : Nat) (s : State) : State :=
  let s1 := s.setID i { s.idAt i with valid := true, inst := (s.feAt j).inst }
  s1.setFE j { s1.feAt j with valid := false }

/-- The decode lanes of a list in turn: each empty, unstalled lane takes the oldest fetched instruction
(43_driver_frontend.md R175). -/
def decodeLanes : List Nat → State → State
  | [], s => s
  | i :: is, s =>
    if (s.idAt i).valid || (s.idAt i).stall then decodeLanes is s
    else
      match oldestLane s.latchFE with
      | none => s
      | some j => decodeLanes is (moveToID i j s)

/-- `Decode()` (43_driver_frontend.md R175). -/
def decode (s : State) : State := decodeLanes (List.range s.cfg.pipeWidth) s

/-! ## Fetch (43_driver_frontend.md section 2) -/

/-- What a read of the trace stream gives (20_memory.md R75, 30_encoding.md R99 to R101). -/
inductive TraceItem where
  /-- A well-formed record. -/
  | record (i : Instr)
  /-- A malformed word: consumed, and then end of stream. -/
  | malformed
  /-- The stream holds no further record. -/
  | endOfStream
  deriving DecidableEq, Repr

/-- What the next `TraceNext()` would give (20_memory.md R75). -/
def nextItem (s : State) : TraceItem :=
  match s.trace[s.tracePos]? with
  | none => .endOfStream
  | some w =>
    match decodeRecord s.cfg.numArchRegs w with
    | .ok i => .record i
    | .error _ => .malformed

/-- An instruction offered at the trace port; one that names a register the block has not is malformed
(30_encoding.md R100). -/
def offered (cfg : Config) (i : Instr) : TraceItem :=
  if i.wellFormed cfg.numArchRegs then .record i else .malformed

/-- The end of the stream met in lane `k`: the halt threshold is recorded, and with nothing ever fetched the run is over
(43_driver_frontend.md R170 to R172). -/
def endInput (k : Nat) (s : State) : State :=
  let s1 := s.setFE k { s.feAt k with valid := false }
  { s1 with eosSeen := true, haltSeq := s1.lastSeq, halted := s1.halted || s1.lastSeq == 0 }

/-- One read of the stream into fetch lane `k` (43_driver_frontend.md R170); a record and a malformed word are consumed
(20_memory.md R75, 30_encoding.md R101). -/
def fetchInto (k : Nat) (item : TraceItem) (s : State) : State :=
  match item with
  | .record i =>
    { s.setFE k { s.feAt k with valid := true, inst := fetchedInst (s.lastSeq + 1) i } with
      lastSeq := s.lastSeq + 1, tracePos := s.tracePos + 1 }
  | .malformed => endInput k { s with tracePos := s.tracePos + 1 }
  | .endOfStream => endInput k s

/-- The fetch lanes of a list in turn. `first` is what the port holds for the tick's first read; later reads take the
stream's next item (43_driver_frontend.md R170, R171). -/
def fetchLanes : List Nat → Option TraceItem → State → State
  | [], _, s => s
  | k :: ks, first, s =>
    if s.eosSeen then s
    else if (s.feAt k).valid || (s.feAt k).stall then fetchLanes ks first s
    else fetchLanes ks none (fetchInto k (first.getD (nextItem s)) s)

/-- `Fetch()` with `item` at the trace port (43_driver_frontend.md R170). -/
def fetch (item : TraceItem) (s : State) : State := fetchLanes (List.range s.cfg.pipeWidth) (some item) s

/-! ## The tick (43_driver_frontend.md section 1) -/

/-- The tick up to Fetch: the cycle is counted, then Commit to Decode are evaluated in the spec's order
(43_driver_frontend.md R166). -/
def beforeFetch (s : State) : Res Unit :=
  (commit { s with cycleCount := s.cycleCount + 1 }).bind fun _ s1 =>
    (writeback s1).bind fun _ s2 =>
      (execute s2).bind fun _ s3 =>
        (schedule s3).bind fun _ s4 =>
          (issue s4).bind fun _ s5 =>
            .ok () (decode s5)

/-- `tick()` with `item` at the trace port. A halted or faulted block does nothing (43_driver_frontend.md R166); a raised
fault ends the tick (R167). -/
def tick (item : TraceItem) (s : State) : State :=
  if running s then ((beforeFetch s).bind (fun _ s1 => .ok () (fetch item s1))).state else s

/-- One clock of the model: the tick, on a state that is a state of the hardware (log 5). -/
def clock (item : TraceItem) (s : State) : Host.Outcome State Fault Refusal :=
  if wellShaped s then .next (tick item s) else .fault .notAMachineState

/-- One clock with an instruction offered at the trace port: the shared part of the five meanings (log 8). -/
def clockWith (i : Instr) (s : State) : Host.Outcome State Fault Refusal := clock (offered s.cfg i) s

end Sys2Proof.Machine
end

