-- ==== Sys2Proof/Machine/Arithmetic.lean ====
section
/-! DEFINITION. The two members of the class "arithmetic/other": ALU (48_instruction_classes.md R246) and OTHER (R250).
A record computes nothing (R245): its meaning is the one clock in which the block finds it at the trace port, and what it
carries into every later clock is its class, its operands and its place in program order (log 8). -/

namespace Sys2Proof.Machine

/-- `ALU d, s1, s2`: latency 1, bypasses the EXEQ (48_instruction_classes.md R246, Latency.lean). -/
def execAlu (d s1 s2 : Operand) (s : State) : Host.Outcome State Fault Refusal := clockWith (.alu d s1 s2) s

/-- `OTHER d, s1, s2`: behaves as ALU in every rule (48_instruction_classes.md R250). -/
def execOther (d s1 s2 : Operand) (s : State) : Host.Outcome State Fault Refusal := clockWith (.other d s1 s2) s

end Sys2Proof.Machine
end

