-- ==== Sys2Proof/Machine/Branch.lean ====
section
/-! DEFINITION. The conditional-branch class, CBR (48_instruction_classes.md R249). It never redirects Fetch, never
squashes and never stalls a younger instruction (R253). -/

namespace Sys2Proof.Machine

/-- `CBR d, s1, s2`: latency 1, tracked like any other record (48_instruction_classes.md R249). -/
def execCbr (d s1 s2 : Operand) (s : State) : Host.Outcome State Fault Refusal := clockWith (.cbr d s1 s2) s

end Sys2Proof.Machine
end

