-- ==== Sys2Proof/Machine/LoadStore.lean ====
section
/-! DEFINITION. The load and store classes: LD (48_instruction_classes.md R247) and ST (R248). Neither has an address or
data (R254, 20_memory.md R70); they differ from ALU in the latency alone. -/

namespace Sys2Proof.Machine

/-- `LD d, s1, s2`: latency LOAD_LATENCY, through the EXEQ when that is above 1 (48_instruction_classes.md R247). -/
def execLd (d s1 s2 : Operand) (s : State) : Host.Outcome State Fault Refusal := clockWith (.ld d s1 s2) s

/-- `ST d, s1, s2`: latency 1; no store buffer and no order against loads (48_instruction_classes.md R248). -/
def execSt (d s1 s2 : Operand) (s : State) : Host.Outcome State Fault Refusal := clockWith (.st d s1 s2) s

end Sys2Proof.Machine
end

