-- ==== Sys2Proof/Machine/Dispatch.lean ====
section
/-! DEFINITION. One arm per row of spec/opcode_table.json. -/

namespace Sys2Proof.Machine

/-- The meaning of an instruction found at the trace port. -/
def exec (i : Instr) (s : State) : Host.Outcome State Fault Refusal :=
  match i with
  | .alu d s1 s2 => Sys2Proof.Machine.execAlu d s1 s2 s
  | .ld d s1 s2 => Sys2Proof.Machine.execLd d s1 s2 s
  | .st d s1 s2 => Sys2Proof.Machine.execSt d s1 s2 s
  | .cbr d s1 s2 => Sys2Proof.Machine.execCbr d s1 s2 s
  | .other d s1 s2 => Sys2Proof.Machine.execOther d s1 s2 s

end Sys2Proof.Machine
end

