-- ==== Sys2Proof/Machine/Step.lean ====
section
/-! DEFINITION. One step of the machine: one `tick()` (43_driver_frontend.md R165), on the record the trace source
delivers next. -/

namespace Sys2Proof.Machine

/-- One tick. Where the stream's next item is a well-formed record the step is that instruction's meaning; at a malformed
word and at the end of the stream it is the same tick with that item at the port (43_driver_frontend.md R166, R170). -/
def step (s : State) : Host.Outcome State Fault Refusal :=
  match nextItem s with
  | .record i => exec i s
  | .malformed => clock .malformed s
  | .endOfStream => clock .endOfStream s

/-- The record word of a table row's `nbits` bits, the bits above them 0. -/
def fetchWord (nbits w : Nat) : Word := BitVec.ofNat 32 (w % 2 ^ nbits)

/-- The stream with a word placed at the read position, as a load from outside places it (log 6): the records before and
after it stay, and the three conditions under which the block reads nothing (halted, faulted, end of stream seen) are
taken back. -/
def State.withFetchWord (s : State) (nbits w : Nat) : State :=
  { s with
    trace := s.trace.take s.tracePos ++ fetchWord nbits w :: s.trace.drop (s.tracePos + 1)
    tracePos := (s.trace.take s.tracePos).length
    eosSeen := false
    halted := false
    fault := none }

end Sys2Proof.Machine
end

