-- ==== Sys2Proof/Safety.lean ====
section
/-! DEFINITION. What the claims say of states and runs: the properties of spec/49_properties.md as decidable
predicates, the life of an instruction (48_instruction_classes.md R257, R258), and what two states that differ only in
unreadable fields have in common (70_reset_and_hazards.md R342). Nothing of the machine depends on this file. -/

namespace Sys2Proof.Machine

/-! ## Runs -/

/-- `n` ticks (43_driver_frontend.md R168). -/
def ticks (n : Nat) (s : State) : Host.Outcome State Fault Refusal := Host.Core.run Sys2Proof.core n s

/-- The states a run from reset passes through. -/
def Reachable (cfg : Config) (trace : List Word) (s : State) : Prop :=
  ∃ n, ticks n (State.resetWith cfg trace) = .next s

/-- A finished run: halted, or faulted (43_driver_frontend.md R168, 60_exceptions.md R315). -/
def ended (s : State) : Bool := s.halted || s.fault.isSome

/-- A configuration under which no trace overflows the EXEQ (42_exeq.md R159, 70_reset_and_hazards.md R346). -/
abbrev Sized (c : Config) : Prop :=
  c.pipeWidth * c.loadLatency ≤ c.exeqSize ∧ 2 * c.pipeWidth ≤ c.wbWidth

/-! ## Views of the state -/

/-- The slot `k` places after the head. -/
def slotFromHead (s : State) (k : Nat) : RobSlot := s.robAt ((s.robHead + k) % s.cfg.robSize)

/-- The sequence numbers a latch holds, by lane. -/
def latchSeqs (latch : List Lane) : List Nat := (latch.filter (fun l => l.valid)).map (fun l => l.inst.seq)

/-- The records a latch holds, by lane. -/
def laneRecords (latch : List Lane) : List Inst := (latch.filter (fun l => l.valid)).map (fun l => l.inst)

/-- The records the EXEQ holds, by slot. -/
def exeqRecords (s : State) : List Inst := (s.exeq.filter (fun x => x.valid)).map (fun x => x.inst)

/-- The travelling copies: the records in SC, the EXEQ and EX (10_state.md R28). -/
def travellers (s : State) : List Inst := laneRecords s.latchSC ++ exeqRecords s ++ laneRecords s.latchEX

/-! ## The properties of spec/49_properties.md at a tick boundary -/

/-- The valid slots are the `rob_count` slots from the head on, `rob_tail` follows them, and they hold the sequence
numbers after `retired_count` in order (R35, R276, R277). -/
abbrev WindowOk (s : State) : Prop :=
  s.robTail = (s.robHead + robCount s) % s.cfg.robSize ∧
  (∀ k < s.cfg.robSize, (slotFromHead s k).valid = decide (k < robCount s)) ∧
  (∀ k < s.cfg.robSize, k < robCount s → (slotFromHead s k).inst.seq = s.retiredCount + 1 + k)

/-- The decode latch holds the sequence numbers after the ROB's, the fetch latch those after the decode latch's, and
`last_seq` is the last of them (R271, R272, 10_state.md R27). -/
abbrev FrontOk (s : State) : Prop :=
  (latchSeqs s.latchID).Perm (List.range' (s.retiredCount + robCount s + 1) (laneCount s.latchID)) ∧
  (latchSeqs s.latchFE).Perm
    (List.range' (s.retiredCount + robCount s + laneCount s.latchID + 1) (laneCount s.latchFE)) ∧
  s.lastSeq = s.retiredCount + robCount s + laneCount s.latchID + laneCount s.latchFE

/-- A record before Issue is as Fetch made it (10_state.md R24, R26). -/
abbrev Fresh (x : Inst) : Prop :=
  x.src1Tag = none ∧ x.src2Tag = none ∧ x.drTag = none ∧ x.src1Ready = false ∧ x.src2Ready = false ∧ x.wait = 0

/-- The records of FE and ID are as Fetch made them. -/
abbrev FreshOk (s : State) : Prop :=
  (∀ l ∈ s.latchFE, l.valid = true → Fresh l.inst) ∧ (∀ l ∈ s.latchID, l.valid = true → Fresh l.inst)

/-- Every ROB slot in use holds a record whose own tag is the slot (10_state.md R26). -/
abbrev OwnTagsOk (s : State) : Prop :=
  ∀ t < s.cfg.robSize, (s.robAt t).valid = true → (s.robAt t).inst.drTag = some t

/-- `ready` implies `exec`, `exec` implies both source-ready flags (R280); a free slot has both flags false
(41_rob.md R140). -/
abbrev FlagsOk (s : State) : Prop :=
  ∀ x ∈ s.rob,
    (x.valid = true → (x.ready = true → x.exec = true) ∧
      (x.exec = true → x.inst.src1Ready = true ∧ x.inst.src2Ready = true)) ∧
    (x.valid = false → x.exec = false ∧ x.ready = false)

/-- A travelling copy belongs to a slot in use that is executing and not ready, with the same record but for the ready
flags and the countdown (R278, 10_state.md R28). -/
abbrev CopyOf (s : State) (c : Inst) : Prop :=
  ∃ t, t < s.cfg.robSize ∧ c.drTag = some t ∧ (s.robAt t).valid = true ∧ (s.robAt t).exec = true ∧
    (s.robAt t).ready = false ∧ (s.robAt t).inst.seq = c.seq ∧ (s.robAt t).inst.op = c.op

/-- Travelling copies and executing slots correspond one to one (R278). -/
abbrev CopiesOk (s : State) : Prop :=
  (∀ c ∈ travellers s, CopyOf s c) ∧
  ((travellers s).map (fun c => c.seq)).Nodup ∧
  (∀ t < s.cfg.robSize, (s.robAt t).valid = true → (s.robAt t).exec = true → (s.robAt t).ready = false →
    ∃ c ∈ travellers s, c.drTag = some t)

/-- The EXEQ holds multi-cycle records only, each already aged once (42_exeq.md R151, R154). -/
abbrev CountdownOk (s : State) : Prop :=
  ∀ x ∈ s.exeq, x.valid = true → 1 < lat s.cfg x.inst.op ∧ x.inst.wait < lat s.cfg x.inst.op

/-- A source that is not ready waits on a live, older, unfinished producer of its register (R279); a source without a
register is ready (44_issue_rename.md R187). -/
abbrev PendingOk (s : State) (u : Nat) (src tag : Option Nat) (ready : Bool) : Prop :=
  ready = false →
    src ≠ none ∧ ∃ t, t < s.cfg.robSize ∧ tag = some t ∧ (s.robAt t).valid = true ∧ (s.robAt t).ready = false ∧
      (s.robAt t).inst.seq < (s.robAt u).inst.seq ∧ (s.robAt t).inst.dest = src

/-- Pending tags are live (R279). -/
abbrev TagsOk (s : State) : Prop :=
  ∀ u < s.cfg.robSize, (s.robAt u).valid = true →
    PendingOk s u (s.robAt u).inst.src1 (s.robAt u).inst.src1Tag (s.robAt u).inst.src1Ready ∧
    PendingOk s u (s.robAt u).inst.src2 (s.robAt u).inst.src2Tag (s.robAt u).inst.src2Ready

/-- A mapping names the youngest in-flight writer of its register, and every register with an in-flight writer is mapped
(R274). -/
abbrev RatOk (s : State) : Prop :=
  (∀ r < s.cfg.numArchRegs, ∀ t ∈ s.ratAt r,
    (s.robAt t).valid = true ∧ (s.robAt t).inst.dest = some r ∧ (s.robAt t).inst.drTag = some t ∧
    ∀ u < s.cfg.robSize, (s.robAt u).valid = true → (s.robAt u).inst.dest = some r →
      (s.robAt u).inst.seq ≤ (s.robAt t).inst.seq) ∧
  (∀ u < s.cfg.robSize, (s.robAt u).valid = true → ∀ r ∈ (s.robAt u).inst.dest, s.ratAt r ≠ none)

/-- Before the end of the stream every fetch lane is full, or nothing was ever fetched; after it the threshold is
`last_seq`, and the run is halted exactly when everything fetched has retired (43_driver_frontend.md R171,
47_commit.md R238). -/
abbrev HaltOk (s : State) : Prop :=
  (s.eosSeen = false →
    s.haltSeq = 0 ∧ s.halted = false ∧ ((∀ l ∈ s.latchFE, l.valid = true) ∨ s.lastSeq = 0)) ∧
  (s.eosSeen = true → s.haltSeq = s.lastSeq ∧ s.halted = decide (s.retiredCount = s.lastSeq))

/-- The read position: one record per fetched instruction, and one more where a malformed word ended the input
(20_memory.md R75, 30_encoding.md R101). -/
abbrev StreamOk (s : State) : Prop :=
  s.tracePos ≤ s.trace.length ∧ s.lastSeq ≤ s.tracePos ∧ s.tracePos ≤ s.lastSeq + 1 ∧
  (s.eosSeen = false → s.tracePos = s.lastSeq)

/-- No lane is ever stalled (10_state.md R44). -/
abbrev NoStall (s : State) : Prop :=
  (∀ l ∈ s.latchFE, l.stall = false) ∧ (∀ l ∈ s.latchID, l.stall = false) ∧
  (∀ l ∈ s.latchSC, l.stall = false) ∧ (∀ l ∈ s.latchEX, l.stall = false)

/-- What holds of every state reached from reset without a fault (R270). -/
structure Inv (s : State) : Prop where
  shape : wellShaped s = true
  noFault : s.fault = none
  window : WindowOk s
  front : FrontOk s
  fresh : FreshOk s
  ownTags : OwnTagsOk s
  flags : FlagsOk s
  copies : CopiesOk s
  countdown : CountdownOk s
  tags : TagsOk s
  rat : RatOk s
  halt : HaltOk s
  stream : StreamOk s
  noStall : NoStall s

/-- Under the in-order policy the executing slots are the oldest ones (R282). -/
abbrev InOrderPrefix (s : State) : Prop :=
  s.cfg.schedPolicy = .inOrder →
    ∀ j < robCount s, ∀ k < j, (slotFromHead s j).exec = true → (slotFromHead s k).exec = true

/-- Every countdown in the EXEQ is running, and no more than PIPE_WIDTH of them are equal: what an EXEQ that never waits
for an execute lane looks like (42_exeq.md R159). -/
abbrev Spread (s : State) : Prop :=
  (∀ x ∈ s.exeq, x.valid = true → 0 < x.inst.wait) ∧
  ∀ w < s.cfg.loadLatency, s.exeq.countP (fun x => x.valid && x.inst.wait == w) ≤ s.cfg.pipeWidth

/-! ## When a tick faults and when it reads the stream -/

/-- How many multi-cycle records wait in the schedule latch to enter the EXEQ (46_execute_writeback.md R220). -/
def exeqDemand (s : State) : Nat := s.latchSC.countP (fun l => l.valid && decide (1 < lat s.cfg l.inst.op))

/-- How many EXEQ slots are free. -/
def exeqFree (s : State) : Nat := s.exeq.countP (fun x => !x.valid)

/-- Fetch will find an empty lane this tick: one is empty already, or a place frees up somewhere ahead of it, since every
stage sees what the stages after it have freed in the same tick (20_memory.md R80, 43_driver_frontend.md R173, R176). -/
def fetchRoom (s : State) : Bool :=
  s.latchFE.any (fun l => !l.valid) || s.latchID.any (fun l => !l.valid) || robHasSpace s || robHeadIsReady s

/-- In `t` a fetch lane holds number `q` as Fetch makes it of the stream's record at that place of `s`, the `q`-th of the trace
(20_memory.md R75, 43_driver_frontend.md R170, 30_encoding.md R94). -/
def FetchedFromStream (s t : State) (q : Nat) : Prop :=
  ∃ (k : Nat) (w : Word) (i : Instr), k < s.cfg.pipeWidth ∧ s.trace[q - 1]? = some w ∧
    decodeRecord s.cfg.numArchRegs w = .ok i ∧
    t.feAt k = { valid := true, stall := false, inst := fetchedInst q i }

/-! ## The life of an instruction (48_instruction_classes.md R257, R258) -/

/-- The states of an instruction at a tick boundary (R257). -/
inductive Phase where
  | unfetched
  | fetched
  | decoded
  | waiting
  | ready
  | scheduled
  | executing
  | finished
  | executed
  | completed
  | committed
  deriving DecidableEq, Repr

/-- A latch holds the instruction with sequence number `q`. -/
def latchHolds (latch : List Lane) (q : Nat) : Bool := latch.any (fun l => l.valid && l.inst.seq == q)

/-- A ROB slot in use that satisfies `p` holds the instruction. -/
def robHolds (s : State) (q : Nat) (p : RobSlot → Bool) : Bool :=
  s.rob.any (fun x => x.valid && x.inst.seq == q && p x)

/-- An EXEQ slot in use that satisfies `p` holds the instruction. -/
def exeqHolds (s : State) (q : Nat) (p : Inst → Bool) : Bool :=
  s.exeq.any (fun x => x.valid && x.inst.seq == q && p x.inst)

/-- A travelling copy of the instruction exists. -/
def travels (s : State) (q : Nat) : Bool :=
  latchHolds s.latchSC q || exeqHolds s q (fun _ => true) || latchHolds s.latchEX q

/-- The ROB flags of an instruction between Schedule and Writeback. -/
def inExecution (x : RobSlot) : Bool := x.exec && !x.ready

/-- The definition of each state (R257). -/
def inPhase (s : State) (q : Nat) : Phase → Bool
  | .unfetched => decide (s.lastSeq < q)
  | .fetched => latchHolds s.latchFE q
  | .decoded => latchHolds s.latchID q
  | .waiting => robHolds s q (fun x => !x.exec && !(x.inst.src1Ready && x.inst.src2Ready))
  | .ready => robHolds s q (fun x => !x.exec && (x.inst.src1Ready && x.inst.src2Ready))
  | .scheduled => robHolds s q inExecution && latchHolds s.latchSC q
  | .executing => robHolds s q inExecution && exeqHolds s q (fun x => decide (0 < x.wait))
  | .finished => robHolds s q inExecution && exeqHolds s q (fun x => x.wait == 0)
  | .executed => robHolds s q inExecution && latchHolds s.latchEX q
  | .completed => robHolds s q (fun x => x.exec && x.ready) && !travels s q
  | .committed =>
    decide (1 ≤ q) && decide (q ≤ s.retiredCount) && !latchHolds s.latchFE q && !latchHolds s.latchID q &&
      !robHolds s q (fun _ => true) && !travels s q

/-- The states an instruction may be in one tick later: the rows of R258 and staying where the row's condition fails. A
wakeup is seen by Schedule in its own tick (20_memory.md R80), so WAITING may pass READY within one tick; SCHEDULED and
EXECUTED never last (46_execute_writeback.md R222, R226). -/
def Phase.successors : Phase → List Phase
  | .unfetched => [.unfetched, .fetched]
  | .fetched => [.fetched, .decoded]
  | .decoded => [.decoded, .waiting, .ready]
  | .waiting => [.waiting, .ready, .scheduled]
  | .ready => [.ready, .scheduled]
  | .scheduled => [.executed, .executing]
  | .executing => [.executing, .executed, .finished]
  | .finished => [.finished, .executed]
  | .executed => [.completed]
  | .completed => [.completed, .committed]
  | .committed => [.committed]

/-- The states of an instruction of latency `n` with nothing else in the machine, tick by tick from its Fetch on
(48_instruction_classes.md R259). -/
def aloneTimeline (n : Nat) : List Phase :=
  [.fetched, .decoded, .ready, .scheduled] ++ List.replicate (n - 1) .executing ++ [.executed, .completed, .committed]

/-- Nothing is in the machine and the stream has not ended: reset, or any state like it (70_reset_and_hazards.md R341). -/
abbrev Idle (s : State) : Prop :=
  wellShaped s = true ∧ running s = true ∧ s.eosSeen = false ∧ s.lastSeq = s.retiredCount ∧
  s.robHead = s.robTail ∧ (∀ e ∈ s.rat, e = none) ∧
  (∀ x ∈ s.rob, x.valid = false) ∧ (∀ x ∈ s.exeq, x.valid = false) ∧
  (∀ l ∈ s.latchFE ++ s.latchID ++ s.latchSC ++ s.latchEX, l.valid = false ∧ l.stall = false)

/-! ## What no rule reads -/

/-- A lane without the record of an instruction it does not hold. -/
def Lane.visible (l : Lane) : Lane := if l.valid then l else { l with inst := .blank }

/-- A ROB slot without the record of an instruction it does not hold. -/
def RobSlot.visible (x : RobSlot) : RobSlot := if x.valid then x else { x with inst := .blank }

/-- An EXEQ slot without the record of an instruction it does not hold. -/
def ExeqSlot.visible (x : ExeqSlot) : ExeqSlot := if x.valid then x else { x with inst := .blank }

/-- The state without the unreadable records (70_reset_and_hazards.md R342, 93_implementation_defined.md U12). -/
def State.visible (s : State) : State :=
  { s with
    rob := s.rob.map RobSlot.visible
    exeq := s.exeq.map ExeqSlot.visible
    latchFE := s.latchFE.map Lane.visible
    latchID := s.latchID.map Lane.visible
    latchSC := s.latchSC.map Lane.visible
    latchEX := s.latchEX.map Lane.visible }

end Sys2Proof.Machine
end

