-- ==== Sys2Proof/Certificates/Slice0/Obligations.lean ====
section
/-! DEFINITION. The statements for the provers. Each docstring names the rule of spec/ it formalises. A statement about
every state takes the shape or the invariant of Safety.lean as a premise where only those states are the hardware's. -/

open Sys2Proof Sys2Proof.Machine

/-! ## The record encoding -/

/-- 30_encoding.md R106: the canonical encoder's formula and its worked examples, decoding an encoded instruction gives it
back, and encoding a decoded word gives the word back exactly when the word is canonical. -/
def Obligations.RecordEncodingRoundTrips : Prop :=
  (∀ i : Instr, (encode i).toNat = i.op.code.toNat + 2 ^ 8 * (opnd i.dest).toNat + 2 ^ 16 * (opnd i.src1).toNat +
    2 ^ 24 * (opnd i.src2).toNat) ∧
  opnd none = 0x00#8 ∧ (∀ r : RegNum, opnd (some r) = 0x80#8 ||| r.setWidth 8) ∧
  (∀ (n : Nat) (i : Instr), i.wellFormed n = true → decodeRecord n (encode i) = .ok i) ∧
  (∀ (n : Nat) (w : Word) (i : Instr), decodeRecord n w = .ok i → (encode i = w ↔ canonical w = true)) ∧
  encode (.alu (some 5#7) (some 1#7) (some 2#7)) = 0x82818500#32 ∧
  encode (.ld (some 3#7) (some 1#7) none) = 0x00818301#32 ∧
  encode (.st none (some 3#7) (some 1#7)) = 0x81830002#32 ∧
  encode (.cbr none (some 4#7) none) = 0x00840003#32 ∧
  encode (.other none none none) = 0x00000004#32

/-- 30_encoding.md R98: the five mask and match rows are all a decoder needs, but for the register-range check that follows
a matching row. -/
def Obligations.DecoderFollowsMaskAndMatchRows : Prop :=
  opcodeRows.map (fun r => (r.mask, r.pattern, r.cls)) =
    [(0x000000FF#32, 0x00000000#32, .alu), (0x000000FF#32, 0x00000001#32, .ld), (0x000000FF#32, 0x00000002#32, .st),
     (0x000000FF#32, 0x00000003#32, .cbr), (0x000000FF#32, 0x00000004#32, .other)] ∧
  ∀ (n : Nat) (w : Word),
    decodeRecord n w =
      match rowOf w with
      | none => .error (.reservedOpcode (opcField w))
      | some r =>
        if (r.cls.instr (operandOf (rdByte w)) (operandOf (rs1Byte w)) (operandOf (rs2Byte w))).wellFormed n then
          .ok (r.cls.instr (operandOf (rdByte w)) (operandOf (rs1Byte w)) (operandOf (rs2Byte w)))
        else
          .error (.registerOutOfRange
            (r.cls.instr (operandOf (rdByte w)) (operandOf (rs1Byte w)) (operandOf (rs2Byte w))))

/-- 30_encoding.md R99 and R100: a word is malformed for a reserved op code or a used register number out of range, and for
nothing else; with 128 registers for the op code alone. -/
def Obligations.MalformedWordsAreTheReservedAndOutOfRange : Prop :=
  (∀ (n : Nat) (w : Word),
    malformed n w = true ↔
      5 ≤ (w.extractLsb' 0 8).toNat ∨
      (w.getLsbD 15 = true ∧ n ≤ (w.extractLsb' 8 7).toNat) ∨
      (w.getLsbD 23 = true ∧ n ≤ (w.extractLsb' 16 7).toNat) ∨
      (w.getLsbD 31 = true ∧ n ≤ (w.extractLsb' 24 7).toNat)) ∧
  (∀ w : Word, malformed 128 w = true ↔ 5 ≤ (w.extractLsb' 0 8).toNat) ∧
  ∀ (n : Nat) (w : Word) (i : Instr), decodeRecord n w = .ok i →
    ∀ o ∈ [i.dest, i.src1, i.src2], ∀ r ∈ regIndex o, r < n

/-- 30_encoding.md R95: the register bits of an unused operand have no effect, the operand decodes to NONE, and the
canonical encoding writes the byte as zero. -/
def Obligations.UnusedRegisterBitsAreIgnored : Prop :=
  (∀ (n : Nat) (w v : Word), opcField w = opcField v →
    (∀ f ∈ [rdByte, rs1Byte, rs2Byte], (f w).getLsbD 7 = (f v).getLsbD 7 ∧ ((f w).getLsbD 7 = true → f w = f v)) →
    decodeRecord n w = decodeRecord n v) ∧
  (∀ (w : Word) (i : Instr), decodeWord w = .ok i →
    (w.getLsbD 15 = false → i.dest = none) ∧ (w.getLsbD 23 = false → i.src1 = none) ∧
      (w.getLsbD 31 = false → i.src2 = none)) ∧
  ∀ i : Instr, (i.dest = none → rdByte (encode i) = 0x00#8) ∧ (i.src1 = none → rs1Byte (encode i) = 0x00#8) ∧
    (i.src2 = none → rs2Byte (encode i) = 0x00#8)

/-- 20_memory.md R77, with the byte order of R76: a byte stream is its records' bytes back to back, least significant
first, a read takes one whole record, and 1 to 3 trailing bytes are no record. -/
def Obligations.ByteStreamHoldsWholeRecords : Prop :=
  (∀ w : Word, bytesOfWord w =
    [w.extractLsb' 0 8, w.extractLsb' 8 8, w.extractLsb' 16 8, w.extractLsb' 24 8]) ∧
  (∀ (ws : List Word) (tail : List Byte), tail.length < 4 →
    wordsOfBytes (ws.flatMap bytesOfWord ++ tail) = ws) ∧
  (∀ bs : List Byte, (wordsOfBytes bs).length = bs.length / 4) ∧
  (∀ (n : Nat) (w : Word) (i : Instr) (rest : List Byte), decodeRecord n w = .ok i →
    decodeBytes n (bytesOfWord w ++ rest) = .ok (i, rest)) ∧
  ∀ (n : Nat) (bs : List Byte), bs.length < 4 →
    decodeBytes n bs = .error (if bs.length = 0 then .endOfStream else .partialRecord bs.length)

/-- 95_test_vectors.md section 2.1, E1 to E6, E8 to E14: words written out from the encoding decode to the instructions
they stand for. -/
def Obligations.SpecWordsDecode : Prop :=
  decodeRecord 32 0x82818500#32 = .ok (.alu (some 5#7) (some 1#7) (some 2#7)) ∧
  decodeRecord 32 0x00818301#32 = .ok (.ld (some 3#7) (some 1#7) none) ∧
  decodeRecord 32 0x81830002#32 = .ok (.st none (some 3#7) (some 1#7)) ∧
  decodeRecord 32 0x00840003#32 = .ok (.cbr none (some 4#7) none) ∧
  decodeRecord 32 0x00000004#32 = .ok (.other none none none) ∧
  decodeRecord 128 0x8080FF00#32 = .ok (.alu (some 127#7) (some 0#7) (some 0#7)) ∧
  decodeRecord 32 0x00007F04#32 = .ok (.other none none none) ∧
  malformed 32 0x00000005#32 = true ∧ malformed 32 0x000000FF#32 = true ∧ malformed 32 0x0000A000#32 = true ∧
  decodeRecord 64 0x0000A000#32 = .ok (.alu (some 32#7) none none) ∧
  decodeRecord 32 0x00002000#32 = .ok (.alu none none none) ∧
  decodeRecord 32 0x80800003#32 = .ok (.cbr none (some 0#7) (some 0#7))

/-- 00_scope.md R7: the width of a tag, the width of a register number and the legal ones, and the latency of each
class. -/
def Obligations.DerivedWidthsAndLatency : Prop :=
  (∀ c : Config, c.tagWidth = max 1 (Nat.clog 2 c.robSize)) ∧
  Config.regWidth = 7 ∧
  (∀ (n : Nat) (r : BitVec Config.regWidth), Operand.inRange n (some r) = true ↔ r.toNat < n) ∧
  ∀ (c : Config) (op : OpClass), lat c op = if op = .ld then c.loadLatency else 1

/-! ## Reset -/

/-- 10_state.md R61: the value of every piece of state after reset. -/
def Obligations.ResetLeavesEverythingEmpty : Prop :=
  ∀ (cfg : Config) (trace : List Word), ∀ s, s = State.resetWith cfg trace →
    s.cfg = cfg ∧ s.trace = trace ∧ s.tracePos = 0 ∧
    s.rat.length = cfg.numArchRegs ∧ (∀ r < cfg.numArchRegs, s.ratAt r = none) ∧
    s.rob.length = cfg.robSize ∧
      (∀ t < cfg.robSize, (s.robAt t).valid = false ∧ (s.robAt t).exec = false ∧ (s.robAt t).ready = false) ∧
    s.robHead = 0 ∧ s.robTail = 0 ∧
    s.exeq.length = cfg.exeqSize ∧ (∀ q < cfg.exeqSize, (s.exeqAt q).valid = false) ∧
    s.latchFE.length = cfg.pipeWidth ∧ s.latchID.length = cfg.pipeWidth ∧ s.latchSC.length = cfg.pipeWidth ∧
      s.latchEX.length = cfg.wbWidth ∧
    (∀ l ∈ s.latchFE ++ s.latchID ++ s.latchSC ++ s.latchEX, l.valid = false ∧ l.stall = false) ∧
    s.lastSeq = 0 ∧ s.haltSeq = 0 ∧ s.eosSeen = false ∧ s.halted = false ∧ s.fault = none ∧
    s.cycleCount = 0 ∧ s.retiredCount = 0

/-- The invariants of this file hold after reset, for every configuration and every trace, and `State.reset` is such a
reset. That its configuration is `Config.atReset` and its trace is empty is the model's choice (logs 3 and 6). -/
def Obligations.ResetSatisfiesInvariants : Prop :=
  (∀ (cfg : Config) (trace : List Word), ∀ s, s = State.resetWith cfg trace → Inv s ∧ InOrderPrefix s ∧ Spread s ∧ Idle s) ∧
  State.reset = State.resetWith Config.atReset []

/-! ## The step and the tick -/

/-- A step runs the instruction the stream's next word decodes to; with no such word it is the tick with a malformed word
or the end of the stream at the port; a word stored by `withFetchWord` is the one the next step runs. That an instruction's
meaning is the tick in which it is at the trace port is the model's choice (log 8), and so is the load (log 6). -/
def Obligations.StepRunsTheDecodedInstruction : Prop :=
  (∀ (s : State) (w : Word) (i : Instr), s.trace[s.tracePos]? = some w →
    decodeRecord s.cfg.numArchRegs w = .ok i → step s = exec i s) ∧
  (∀ (s : State) (w : Word), s.trace[s.tracePos]? = some w →
    malformed s.cfg.numArchRegs w = true → step s = clock .malformed s) ∧
  (∀ s : State, s.trace.length ≤ s.tracePos → step s = clock .endOfStream s) ∧
  ∀ (s : State) (i : Instr), i.wellFormed s.cfg.numArchRegs = true →
    step (s.withFetchWord 32 (encode i).toNat) = exec i (s.withFetchWord 32 (encode i).toNat)

/-- 43_driver_frontend.md section 1: a tick counts the cycle first and then evaluates Commit, Writeback, Execute, Schedule,
Issue, Decode and Fetch, each on the state the one before left; a fault raised in a stage ends the tick there; a halted or
faulted machine does nothing. -/
def Obligations.TickEvaluatesStagesInOrder : Prop :=
  (∀ (item : TraceItem) (s s1 s2 s3 s4 s5 : State), s.halted = false → s.fault = none →
    commit { s with cycleCount := s.cycleCount + 1 } = .ok () s1 → writeback s1 = .ok () s2 →
    execute s2 = .ok () s3 → schedule s3 = .ok () s4 → issue s4 = .ok () s5 →
    tick item s = fetch item (decode s5)) ∧
  (∀ (item : TraceItem) (s u : State), s.halted = false → s.fault = none →
    (commit { s with cycleCount := s.cycleCount + 1 } = .raised u ∨
      ∃ s1, commit { s with cycleCount := s.cycleCount + 1 } = .ok () s1 ∧
        (writeback s1 = .raised u ∨ ∃ s2, writeback s1 = .ok () s2 ∧
          (execute s2 = .raised u ∨ ∃ s3, execute s2 = .ok () s3 ∧
            (schedule s3 = .raised u ∨ ∃ s4, schedule s3 = .ok () s4 ∧ issue s4 = .raised u)))) →
    tick item s = u) ∧
  ∀ (item : TraceItem) (s : State), s.halted = true ∨ s.fault ≠ none → tick item s = s

/-- 43_driver_frontend.md R166, 60_exceptions.md R303 and R305: on a halted or faulted machine every instruction and every
step leaves the whole state as it is. -/
def Obligations.EndedMachineStandsStill : Prop :=
  ∀ (i : Instr) (s : State), wellShaped s = true → ended s = true → exec i s = .next s ∧ step s = .next s

/-! ## The operations -/

/-- spec/40_rat.md: reading, setting and conditionally clearing a mapping, and nothing else of the state. -/
def Obligations.RatOperationsTouchOneRegister : Prop :=
  ∀ (s : State) (r t : Nat), r < s.rat.length →
    ratGetRemap r s = s.rat[r]?.join ∧
    (∀ q, (ratSetRemap r t s).ratAt q = if q = r then some t else s.ratAt q) ∧
    (∀ q, (ratReset r t s).ratAt q = if q = r ∧ s.ratAt r = some t then none else s.ratAt q) ∧
    ratSetRemap r t s = { s with rat := (ratSetRemap r t s).rat } ∧
    ratReset r t s = { s with rat := (ratReset r t s).rat }

/-- spec/41_rob.md, insert: the tail slot takes the record with its own tag, neither executing nor ready, the tail moves on
and every other slot stays; without space it is fault 2 and nothing else. -/
def Obligations.RobInsertFillsTheTailSlot : Prop :=
  ∀ (s : State) (x : Inst), s.rob.length = s.cfg.robSize → s.robTail < s.cfg.robSize →
    (robHasSpace s = true → ∃ s', robInsert x s = .ok s.robTail s' ∧
      s'.robAt s.robTail =
        { valid := true, exec := false, ready := false, inst := { x with drTag := some s.robTail } } ∧
      (∀ u, u ≠ s.robTail → s'.robAt u = s.robAt u) ∧
      s'.robTail = (s.robTail + 1) % s.cfg.robSize ∧ s' = { s with rob := s'.rob, robTail := s'.robTail }) ∧
    (robHasSpace s = false → robInsert x s = .raised { s with fault := some .robInsertFull })

/-- spec/41_rob.md, mark_executing, is_ready, mark_ready and remove_head: what each writes in its own slot, and the fault
each raises outside its precondition. -/
def Obligations.RobFlagOperations : Prop :=
  ∀ (s : State) (t : Nat), s.rob.length = s.cfg.robSize → s.robHead < s.cfg.robSize → t < s.cfg.robSize →
    robMarkExecuting t s =
      (if (s.robAt t).valid = true ∧ (s.robAt t).exec = false then
        .ok () { s with rob := s.rob.set t { s.robAt t with exec := true } }
      else .raised { s with fault := some .schedAlreadyExecuting }) ∧
    robIsReady t s =
      (if (s.robAt t).valid = true then .ok (s.robAt t).ready s else .raised { s with fault := some .staleTag }) ∧
    robMarkReady t s =
      (if (s.robAt t).valid = true then .ok () { s with rob := s.rob.set t { s.robAt t with ready := true } }
      else .raised { s with fault := some .staleTag }) ∧
    robRemoveHead s =
      (if (s.robAt s.robHead).valid = true ∧ (s.robAt s.robHead).ready = true then
        .ok (s.robAt s.robHead).inst
          { s with
            rob := s.rob.set s.robHead { s.robAt s.robHead with valid := false, exec := false, ready := false }
            robHead := (s.robHead + 1) % s.cfg.robSize }
      else .raised { s with fault := some .robRemoveNotReady })

/-- spec/41_rob.md, wakeup: in every valid slot exactly the sources that carry the broadcast tag become ready; tags, flags
and invalid slots stay. -/
def Obligations.WakeupReachesEveryWaitingSource : Prop :=
  ∀ (s : State) (t u : Nat), ∀ s', s' = robWakeup t s →
    s' = { s with rob := s'.rob } ∧
    ((s.robAt u).valid = false → s'.robAt u = s.robAt u) ∧
    ((s.robAt u).valid = true →
      s'.robAt u = { s.robAt u with inst := { (s.robAt u).inst with
        src1Ready := (s'.robAt u).inst.src1Ready
        src2Ready := (s'.robAt u).inst.src2Ready } } ∧
      ((s'.robAt u).inst.src1Ready = true ↔ (s.robAt u).inst.src1Ready = true ∨ (s.robAt u).inst.src1Tag = some t) ∧
      ((s'.robAt u).inst.src2Ready = true ↔ (s.robAt u).inst.src2Ready = true ∨ (s.robAt u).inst.src2Tag = some t))

/-- spec/42_exeq.md, insert and cycle: the lowest free slot takes the record with its countdown at LAT, a full queue is
fault 1; one cycle takes one off every countdown, stopping at 0. -/
def Obligations.ExeqInsertAndCycle : Prop :=
  ∀ (s : State) (x : Inst),
    (∀ q < s.exeq.length, (s.exeqAt q).valid = false → (∀ p < q, (s.exeqAt p).valid = true) →
      exeqInsert x s =
        .ok () { s with exeq := s.exeq.set q { valid := true, inst := { x with wait := lat s.cfg x.op } } }) ∧
    ((∀ q < s.exeq.length, (s.exeqAt q).valid = true) →
      exeqInsert x s = .raised { s with fault := some .exeqOverflow }) ∧
    exeqCycle s = { s with exeq := (exeqCycle s).exeq } ∧
    ∀ q, (exeqCycle s).exeqAt q =
      if (s.exeqAt q).valid = true then
        { s.exeqAt q with inst := { (s.exeqAt q).inst with wait := (s.exeqAt q).inst.wait - 1 } }
      else s.exeqAt q

/-- spec/42_exeq.md, has_finished and remove_finished: with some valid slot at 0, the slot of the smallest sequence number is
removed. That with none at 0 the operation answers nothing is the model's choice (log 14): 42_exeq.md R157 and
93_implementation_defined.md U17 leave that call undefined. -/
def Obligations.ExeqRemovesOldestFinished : Prop :=
  ∀ s : State,
    (exeqHasFinished s = true ↔ ∃ q < s.exeq.length, (s.exeqAt q).valid = true ∧ (s.exeqAt q).inst.wait = 0) ∧
    (exeqRemoveFinished s = none ↔ exeqHasFinished s = false) ∧
    ∀ (x : Inst) (s' : State), exeqRemoveFinished s = some (x, s') →
      ∃ q < s.exeq.length, (s.exeqAt q).valid = true ∧ (s.exeqAt q).inst = x ∧ x.wait = 0 ∧
        s' = { s with exeq := s.exeq.set q { valid := false, inst := x } } ∧
        ∀ p < s.exeq.length, (s.exeqAt p).valid = true → (s.exeqAt p).inst.wait = 0 →
          x.seq ≤ (s.exeqAt p).inst.seq

/-! ## The stages -/

/-- spec/47_commit.md: Commit retires the ready instructions at the head, in order, up to PIPE_WIDTH of them and no
further; each frees its slot, clears its own RAT mapping and no other, and the last one fetched halts the run. -/
def Obligations.CommitRetiresTheReadyHead : Prop :=
  ∀ s : State, Inv s → ∃ s' m, commit s = .ok () s' ∧
    m ≤ s.cfg.pipeWidth ∧ m ≤ robCount s ∧ (∀ k < m, (slotFromHead s k).ready = true) ∧
    (m = s.cfg.pipeWidth ∨ m = robCount s ∨ (slotFromHead s m).ready = false) ∧
    s'.robHead = (s.robHead + m) % s.cfg.robSize ∧ s'.retiredCount = s.retiredCount + m ∧
    (∀ t < s.cfg.robSize, s'.robAt t =
      if ∃ k < m, t = (s.robHead + k) % s.cfg.robSize then
        { s.robAt t with valid := false, exec := false, ready := false }
      else s.robAt t) ∧
    (∀ r < s.cfg.numArchRegs, s'.ratAt r =
      if ∃ k < m, s.ratAt r = some ((s.robHead + k) % s.cfg.robSize) then none else s.ratAt r) ∧
    (s'.halted = true ↔ s.halted = true ∨ (s.eosSeen = true ∧ 0 < m ∧ s.haltSeq ≤ s.retiredCount + m)) ∧
    s' = { s with rat := s'.rat, rob := s'.rob, robHead := s'.robHead, retiredCount := s'.retiredCount,
                  halted := s'.halted }

/-- spec/46_execute_writeback.md section 2: Writeback empties every lane of the execute latch, makes exactly the slots of
its records ready, sets exactly the source-ready flags that wait on their tags, and writes nothing else. -/
def Obligations.WritebackMarksAndWakes : Prop :=
  ∀ s : State, s.latchEX.length = s.cfg.wbWidth →
    (∀ l ∈ s.latchEX, l.valid = true → ∃ t, l.inst.drTag = some t ∧ (s.robAt t).valid = true) →
    ∃ s', writeback s = .ok () s' ∧
      s'.latchEX = s.latchEX.map (fun l => { l with valid := false }) ∧
      (∀ u, s'.robAt u =
        if (s.robAt u).valid = true then
          { s.robAt u with
            ready := (s.robAt u).ready || s.latchEX.any (fun l => l.valid && l.inst.drTag == some u)
            inst := { (s.robAt u).inst with
              src1Ready := (s.robAt u).inst.src1Ready ||
                s.latchEX.any (fun l => l.valid && l.inst.drTag == (s.robAt u).inst.src1Tag)
              src2Ready := (s.robAt u).inst.src2Ready ||
                s.latchEX.any (fun l => l.valid && l.inst.drTag == (s.robAt u).inst.src2Tag) } }
        else s.robAt u) ∧
      s' = { s with rob := s'.rob, latchEX := s'.latchEX }

/-- 46_execute_writeback.md section 2: the order of the execute latch's lanes does not matter to the ROB. -/
def Obligations.WritebackLaneOrderIsImmaterial : Prop :=
  ∀ (s s1 : State) (ex : List Lane), s.latchEX.length = s.cfg.wbWidth → s.latchEX.Perm ex →
    writeback s = .ok () s1 →
    ∃ s2, writeback { s with latchEX := ex } = .ok () s2 ∧ s2.rob = s1.rob

/-- spec/46_execute_writeback.md section 1, with the execute latch empty as Writeback leaves it: where the EXEQ has room,
Execute empties the schedule latch, ALU, ST, CBR, OTHER (and LD at latency 1) stand in the execute latch, a longer LD stands
in the EXEQ at LAT - 1, and no instruction is lost or made; where it has not, EXEQ_OVERFLOW is raised with the EXEQ full. -/
def Obligations.ExecutePathDependsOnLatencyAlone : Prop :=
  ∀ s : State, wellShaped s = true → (∀ l ∈ s.latchEX, l.valid = false) →
    (exeqDemand s ≤ exeqFree s → ∃ s', execute s = .ok () s' ∧
      s'.latchSC = s.latchSC.map (fun l => { l with valid := false }) ∧
      (∀ l ∈ s.latchSC, l.valid = true → lat s.cfg l.inst.op = 1 →
        ∃ e ∈ s'.latchEX, e.valid = true ∧ e.inst = l.inst) ∧
      (∀ l ∈ s.latchSC, l.valid = true → 1 < lat s.cfg l.inst.op →
        ∃ x ∈ s'.exeq, x.valid = true ∧ x.inst = { l.inst with wait := lat s.cfg l.inst.op - 1 }) ∧
      ((travellers s').map (fun c => c.seq)).Perm ((travellers s).map (fun c => c.seq)) ∧
      s' = { s with exeq := s'.exeq, latchSC := s'.latchSC, latchEX := s'.latchEX }) ∧
    (exeqFree s < exeqDemand s → ∃ s', execute s = .raised s' ∧
      s'.fault = some .exeqOverflow ∧ (∀ x ∈ s'.exeq, x.valid = true) ∧
      s' = { s with exeq := s'.exeq, latchSC := s'.latchSC, latchEX := s'.latchEX, fault := s'.fault })

/-- spec/42_exeq.md, timing through the EXEQ: an entry with two or more cycles left stays with one less; one with its last
cycle reaches the execute latch, or waits at 0 because every lane of the execute latch is taken. -/
def Obligations.CountdownLeavesTheExeqAtZero : Prop :=
  ∀ s s' : State, wellShaped s = true → (∀ l ∈ s.latchEX, l.valid = false) → execute s = .ok () s' →
    ∀ x ∈ s.exeq, x.valid = true →
      (2 ≤ x.inst.wait → ∃ y ∈ s'.exeq, y.valid = true ∧ y.inst = { x.inst with wait := x.inst.wait - 1 }) ∧
      (x.inst.wait ≤ 1 →
        (∃ e ∈ s'.latchEX, e.valid = true ∧ e.inst = { x.inst with wait := 0 }) ∨
        ((∀ e ∈ s'.latchEX, e.valid = true) ∧ ∃ y ∈ s'.exeq, y.valid = true ∧ y.inst = { x.inst with wait := 0 }))

/-- 49_properties.md R283, and spec/45_schedule.md: under either policy Schedule marks executing only slots whose
two sources are both ready, at most PIPE_WIDTH of them, and puts one copy of each in an empty schedule lane; the first empty
lane takes what the policy selects; it stops only when nothing more is selected or every lane is full; it raises nothing and
writes nothing else. -/
def Obligations.ScheduleTakesOnlyReadySlots : Prop :=
  ∀ s : State, wellShaped s = true → ∃ s', schedule s = .ok () s' ∧
    (∀ t, s'.robAt t = s.robAt t ∨
      ((s.robAt t).valid = true ∧ (s.robAt t).exec = false ∧ (s.robAt t).inst.src1Ready = true ∧
        (s.robAt t).inst.src2Ready = true ∧ s'.robAt t = { s.robAt t with exec := true } ∧
        ∃ l ∈ s'.latchSC, l.valid = true ∧ l.inst = (s.robAt t).inst)) ∧
    s'.rob.countP (fun x => x.exec) ≤ s.rob.countP (fun x => x.exec) + s.cfg.pipeWidth ∧
    laneCount s'.latchSC + s.rob.countP (fun x => x.exec) = laneCount s.latchSC + s'.rob.countP (fun x => x.exec) ∧
    (∀ i, (s.scAt i).valid = true → s'.scAt i = s.scAt i) ∧
    (∀ i, (s'.scAt i).valid = false → s'.scAt i = s.scAt i) ∧
    (∀ i, (s.scAt i).valid = false → (s'.scAt i).valid = true →
      ∃ t, (s.robAt t).exec = false ∧ (s'.robAt t).exec = true ∧
        s'.scAt i = { s.scAt i with valid := true, inst := (s.robAt t).inst }) ∧
    (∀ i t, i < s.cfg.pipeWidth → (s.scAt i).valid = false → (∀ j < i, (s.scAt j).valid = true) → select s = some t →
      s'.scAt i = { s.scAt i with valid := true, inst := (s.robAt t).inst } ∧ (s'.robAt t).exec = true) ∧
    (select s' = none ∨ ∀ l ∈ s'.latchSC, l.valid = true) ∧
    s' = { s with rob := s'.rob, latchSC := s'.latchSC }

/-- spec/45_schedule.md and 41_rob.md, program order: out of order selects the oldest non-executing slot whose operands are
ready, in order the oldest non-executing slot and only if its operands are ready; oldest is by sequence number; `select` is
the one the configuration names. Over the lanes of a tick, every slot Schedule takes is older than every candidate it leaves:
than every one whose operands are ready out of order, than every one at all in order. -/
def Obligations.SelectionPrefersProgramOrder : Prop :=
  (∀ (s : State) (t : Nat), Inv s →
    (selectOoo s = some t ↔
      t < s.cfg.robSize ∧ candidate s t = true ∧ operandsReady s t = true ∧
        ∀ u < s.cfg.robSize, candidate s u = true → operandsReady s u = true →
          (s.robAt t).inst.seq ≤ (s.robAt u).inst.seq) ∧
    (selectInOrder s = some t ↔
      t < s.cfg.robSize ∧ candidate s t = true ∧ operandsReady s t = true ∧
        ∀ u < s.cfg.robSize, candidate s u = true → (s.robAt t).inst.seq ≤ (s.robAt u).inst.seq)) ∧
  (∀ s : State,
    (s.cfg.schedPolicy = .ooo → select s = selectOoo s) ∧ (s.cfg.schedPolicy = .inOrder → select s = selectInOrder s)) ∧
  ∀ s s' : State, wellShaped s = true → WindowOk s → schedule s = .ok () s' →
    ∀ t u, (s.robAt t).exec = false → (s'.robAt t).exec = true → candidate s' u = true →
      s.cfg.schedPolicy = .inOrder ∨ operandsReady s' u = true →
      (s.robAt t).inst.seq < (s'.robAt u).inst.seq

/-- 41_rob.md, program order: `rob_order` lists the slots from the head on, exactly the valid ones, and their sequence
numbers are the `rob_count` numbers after `retired_count`, in order. -/
def Obligations.ProgramOrderIsAgeOrder : Prop :=
  ∀ s : State, Inv s →
    robOrder s = (List.range (robCount s)).map (fun k => (s.robHead + k) % s.cfg.robSize) ∧
    (∀ t, t ∈ robOrder s ↔ t < s.cfg.robSize ∧ (s.robAt t).valid = true) ∧
    (robOrder s).map (fun t => (s.robAt t).inst.seq) = List.range' (s.retiredCount + 1) (robCount s)

/-- 49_properties.md R276: tail minus head is the number of valid slots modulo ROB_SIZE; the ROB has space exactly when that
number is below ROB_SIZE, and Issue does nothing where it is not. -/
def Obligations.OccupancyIsTailMinusHead : Prop :=
  ∀ s : State, Inv s →
    (s.robTail + s.cfg.robSize - s.robHead) % s.cfg.robSize = robCount s % s.cfg.robSize ∧
    robCount s ≤ s.cfg.robSize ∧
    (robHasSpace s = true ↔ robCount s < s.cfg.robSize) ∧
    (robCount s = s.cfg.robSize → s.robTail = s.robHead ∧ issue s = .ok () s)

/-- spec/44_issue_rename.md: one issue resolves both sources against the RAT as it stands, then takes the tail slot, then
maps the destination to it: an unused or unmapped source is ready without a tag, a mapped one has the tag and the
readiness the ROB reports, and a record that reads its own destination register sees the older producer. -/
def Obligations.IssueResolvesThenRenames : Prop :=
  ∀ (s : State) (j : Nat) (x : Inst), (s.idAt j).inst = x → robHasSpace s = true → s.rob.length = s.cfg.robSize →
    s.robTail < s.cfg.robSize → (∀ d, x.dest = some d → d < s.rat.length) →
    (∀ r m, s.ratAt r = some m → (s.robAt m).valid = true) →
    ∃ s', issueOne j s = .ok () s' ∧
      s'.robAt s.robTail =
        { valid := true, exec := false, ready := false
          inst := { x with
            drTag := some s.robTail
            src1Tag := x.src1.bind s.ratAt
            src1Ready := ((x.src1.bind s.ratAt).map (fun m => (s.robAt m).ready)).getD true
            src2Tag := x.src2.bind s.ratAt
            src2Ready := ((x.src2.bind s.ratAt).map (fun m => (s.robAt m).ready)).getD true } } ∧
      (∀ u, u ≠ s.robTail → s'.robAt u = s.robAt u) ∧
      (∀ r, s'.ratAt r = if x.dest = some r then some s.robTail else s.ratAt r) ∧
      s'.robTail = (s.robTail + 1) % s.cfg.robSize ∧
      s'.latchID = s.latchID.set j { s.idAt j with valid := false } ∧
      s' = { s with rat := s'.rat, rob := s'.rob, robTail := s'.robTail, latchID := s'.latchID }

/-- 49_properties.md section 5, the dependency scenario: of two instructions issued one after the other, the second, reading
in either source the register the first writes, carries there the first one's tag and is not ready there. -/
def Obligations.DependentPairIsLinked : Prop :=
  ∀ (s s1 s2 : State) (j k r : Nat), s.rob.length = s.cfg.robSize → s.robTail < s.cfg.robSize → r < s.rat.length →
    (s.idAt j).inst.dest = some r → issueOne j s = .ok () s1 → issueOne k s1 = .ok () s2 →
    ((s1.idAt k).inst.src1 = some r →
      (s2.robAt s1.robTail).inst.src1Tag = some s.robTail ∧ (s2.robAt s1.robTail).inst.src1Ready = false) ∧
    ((s1.idAt k).inst.src2 = some r →
      (s2.robAt s1.robTail).inst.src2Tag = some s.robTail ∧ (s2.robAt s1.robTail).inst.src2Ready = false) ∧
    (s2.robAt s.robTail).inst.drTag = some s.robTail ∧ s1.robTail ≠ s.robTail

/-- spec/44_issue_rename.md: Issue moves the decoded instructions into the ROB in program order until the latch is empty or
the ROB is full, without a fault, and keeps the window, the order of the front end and the soundness of the RAT. -/
def Obligations.IssueFillsTheRobInOrder : Prop :=
  ∀ s : State, Inv s → ∃ s', issue s = .ok () s' ∧
    robCount s' = min (robCount s + laneCount s.latchID) s.cfg.robSize ∧
    robCount s' + laneCount s'.latchID = robCount s + laneCount s.latchID ∧
    WindowOk s' ∧ FrontOk s' ∧ RatOk s' ∧
    s' = { s with rat := s'.rat, rob := s'.rob, robTail := s'.robTail, latchID := s'.latchID }

/-- 43_driver_frontend.md section 3: Decode fills the empty decode lanes with the oldest fetched instructions, unchanged and
in order of age; a full lane keeps its instruction, and what stays in the fetch latch is younger. -/
def Obligations.DecodeMovesTheOldestFetched : Prop :=
  ∀ s : State, s.latchFE.length = s.cfg.pipeWidth → s.latchID.length = s.cfg.pipeWidth →
    (∀ l ∈ s.latchID, l.stall = false) → ∀ s', s' = decode s →
    laneCount s'.latchID = min s.cfg.pipeWidth (laneCount s.latchID + laneCount s.latchFE) ∧
    laneCount s'.latchID + laneCount s'.latchFE = laneCount s.latchID + laneCount s.latchFE ∧
    (latchSeqs s'.latchID ++ latchSeqs s'.latchFE).Perm (latchSeqs s.latchID ++ latchSeqs s.latchFE) ∧
    (∀ i, (s.idAt i).valid = true → s'.idAt i = s.idAt i) ∧
    (∀ i, (s.idAt i).valid = false → (s'.idAt i).valid = true →
      (∃ l ∈ s.latchFE, l.valid = true ∧ l.inst = (s'.idAt i).inst) ∧
      (∀ l ∈ s'.latchFE, l.valid = true → (s'.idAt i).inst.seq ≤ l.inst.seq) ∧
      ∀ j > i, (s.idAt j).valid = false → (s'.idAt j).valid = true → (s'.idAt i).inst.seq ≤ (s'.idAt j).inst.seq) ∧
    s' = { s with latchFE := s'.latchFE, latchID := s'.latchID }

/-! ## An instruction at the trace port -/

/-- Completion of ALU, LD, ST, CBR and OTHER on a running machine whose stream has not ended: where the EXEQ has room for what
Execute brings and a place frees up for Fetch, the instruction is taken, with the next sequence number, its class and its
operands, into a fetch lane; nothing faults; every further number the tick gives goes to the stream's record of that number
(43_driver_frontend.md R170, 30_encoding.md R94; the meaning of an instruction is log 8). And whatever a step fetches, in any
number of lanes, each new number stands in a fetch lane with the stream's record of that number, in ascending lanes. -/
def Obligations.RecordIsAdmitted : Prop :=
  (∀ (i : Instr) (s : State), Inv s → s.halted = false → s.eosSeen = false → i.wellFormed s.cfg.numArchRegs = true →
    exeqDemand s ≤ exeqFree s → fetchRoom s = true →
    ∃ t k, exec i s = .next t ∧ k < s.cfg.pipeWidth ∧
      t.feAt k = { valid := true, stall := false, inst := fetchedInst (s.lastSeq + 1) i } ∧
      inPhase t (s.lastSeq + 1) .fetched = true ∧ s.lastSeq < t.lastSeq ∧ s.tracePos < t.tracePos ∧
      (∀ q, s.lastSeq + 1 < q → q ≤ t.lastSeq → FetchedFromStream s t q) ∧
      t.cycleCount = s.cycleCount + 1 ∧ t.fault = none ∧ t.halted = false) ∧
  ∀ s t : State, Inv s → step s = .next t →
    (∀ q, s.lastSeq < q → q ≤ t.lastSeq → FetchedFromStream s t q) ∧
    ∀ k k', k < k' → (t.feAt k).valid = true → (t.feAt k').valid = true → s.lastSeq < (t.feAt k).inst.seq →
      s.lastSeq < (t.feAt k').inst.seq → (t.feAt k).inst.seq < (t.feAt k').inst.seq

/-- 43_driver_frontend.md R173 and R176: where nothing frees up, or the stream has ended, the record at the port waits: the
tick is the same whatever it is, and nothing is read (the record at the port is log 8). -/
def Obligations.RecordWaitsWithoutRoom : Prop :=
  ∀ (i j : Instr) (s : State), Inv s → s.eosSeen = true ∨ fetchRoom s = false →
    ∃ t, exec i s = .next t ∧ exec j s = .next t ∧ t.tracePos = s.tracePos ∧ t.lastSeq = s.lastSeq ∧
      t.eosSeen = s.eosSeen ∧ t.haltSeq = s.haltSeq

/-- The `exec` of an instruction that names a register the block has not: it is the tick with a malformed word at the port,
consumed, given no sequence number, ending the input, and with nothing ever fetched the run; the fetch latch holds only
records it held. That such an instruction is
offered as a malformed word, one trace word being consumed whatever the stream holds, is the model's choice (log 8); `step`
never runs this case, and what a step does at a malformed word and at the end of the stream is
`Obligations.InputEndsAtMalformedWordOrEnd`. -/
def Obligations.OutOfRangeRecordEndsTheInput : Prop :=
  ∀ (i : Instr) (s : State), Inv s → s.halted = false → s.eosSeen = false → i.wellFormed s.cfg.numArchRegs = false →
    exeqDemand s ≤ exeqFree s → fetchRoom s = true →
    ∃ t, exec i s = .next t ∧ t.eosSeen = true ∧ t.haltSeq = s.lastSeq ∧ t.lastSeq = s.lastSeq ∧
      t.tracePos = s.tracePos + 1 ∧ (t.halted = true ↔ s.lastSeq = 0) ∧
      (laneRecords t.latchFE).Sublist (laneRecords s.latchFE) ∧ t.fault = none

/-- Frame of ALU, LD, ST, CBR and OTHER: in the clock that meets it an instruction changes nothing but what Fetch writes, the
fetch latch, `last_seq`, `eos_seen`, `halt_seq`, `halted` and the read position (43_driver_frontend.md R170), on top of the
six stages that do not see it; it disturbs no instruction the fetch latch holds, and after a fault it changes nothing (the
meaning of an instruction is log 8). -/
def Obligations.RecordTouchesOnlyWhatFetchWrites : Prop :=
  ∀ (i : Instr) (s : State), wellShaped s = true → running s = true →
    (∀ u, beforeFetch s = .ok () u → ∃ t, exec i s = .next t ∧
      t = { u with latchFE := t.latchFE, lastSeq := t.lastSeq, eosSeen := t.eosSeen, haltSeq := t.haltSeq,
                   halted := t.halted, tracePos := t.tracePos } ∧
      ∀ k, (u.feAt k).valid = true → t.feAt k = u.feAt k) ∧
    (∀ u, beforeFetch s = .raised u → exec i s = .next u)

/-- No instruction writes the configuration, the trace or a stall flag (00_scope.md R6, 20_memory.md R78, 10_state.md R44). -/
def Obligations.ConfigTraceAndStallAreNeverWritten : Prop :=
  ∀ (i : Instr) (s t : State), exec i s = .next t ∨ step s = .next t →
    t.cfg = s.cfg ∧ t.trace = s.trace ∧
    t.latchFE.map (fun l => l.stall) = s.latchFE.map (fun l => l.stall) ∧
    t.latchID.map (fun l => l.stall) = s.latchID.map (fun l => l.stall) ∧
    t.latchSC.map (fun l => l.stall) = s.latchSC.map (fun l => l.stall) ∧
    t.latchEX.map (fun l => l.stall) = s.latchEX.map (fun l => l.stall)

/-- 49_properties.md section 4 and the counters: `cycle_count` grows by one in every tick that is evaluated, a faulting one
included; at most PIPE_WIDTH instructions retire and at most PIPE_WIDTH are fetched. -/
def Obligations.CountersAdvanceWithinTheWidth : Prop :=
  ∀ s t : State, wellShaped s = true → running s = true → step s = .next t →
    t.cycleCount = s.cycleCount + 1 ∧
    s.retiredCount ≤ t.retiredCount ∧ t.retiredCount ≤ s.retiredCount + s.cfg.pipeWidth ∧
    s.lastSeq ≤ t.lastSeq ∧ t.lastSeq ≤ s.lastSeq + s.cfg.pipeWidth ∧
    s.tracePos ≤ t.tracePos ∧ t.tracePos ≤ s.tracePos + s.cfg.pipeWidth

/-- 43_driver_frontend.md R171: once the end of the stream has been seen it stays seen, and nothing more is read. -/
def Obligations.EndOfStreamIsSticky : Prop :=
  ∀ (i : Instr) (s t : State), s.eosSeen = true → exec i s = .next t ∨ step s = .next t →
    t.eosSeen = true ∧ t.tracePos = s.tracePos ∧ t.lastSeq = s.lastSeq ∧ t.haltSeq = s.haltSeq

/-! ## Faults -/

/-- 60_exceptions.md R301 and R302: on a running machine a tick faults exactly when Execute brings more multi-cycle records
than the EXEQ has free slots, and then with EXEQ_OVERFLOW; faults 2 to 5 never occur. -/
def Obligations.OnlyExeqOverflowFaults : Prop :=
  ∀ (i : Instr) (s : State), Inv s → s.halted = false →
    ∃ t, exec i s = .next t ∧ t.fault = if exeqFree s < exeqDemand s then some .exeqOverflow else none

/-- 43_driver_frontend.md R167 and 60_exceptions.md R303: the overflow ends the tick inside Execute: the cycle is counted,
the EXEQ is full and its countdowns have not moved, and what Issue, Decode and Fetch write is as before. -/
def Obligations.OverflowEndsTheTickInExecute : Prop :=
  ∀ (i : Instr) (s : State), Inv s → s.halted = false → exeqFree s < exeqDemand s →
    ∃ t, exec i s = .next t ∧ t.fault = some .exeqOverflow ∧ t.halted = false ∧ t.cycleCount = s.cycleCount + 1 ∧
      (∀ x ∈ t.exeq, x.valid = true) ∧ (∀ q, (s.exeqAt q).valid = true → t.exeqAt q = s.exeqAt q) ∧
      t.latchID = s.latchID ∧ t.latchFE = s.latchFE ∧ t.robTail = s.robTail ∧ t.lastSeq = s.lastSeq ∧
      t.eosSeen = s.eosSeen ∧ t.haltSeq = s.haltSeq ∧ t.tracePos = s.tracePos

/-! ## Invariants that every step keeps -/

/-- 20_memory.md section 1: no index is ever out of range: every step from a machine state answers a machine state. What a
machine state is, `wellShaped`, is the model's reading of the ranges of spec/10_state.md (log 5). -/
def Obligations.EveryStepKeepsTheShape : Prop :=
  ∀ s : State, wellShaped s = true → ∃ t, step s = .next t ∧ wellShaped t = true

/-- The whole invariant of spec/49_properties.md is kept by every step that does not fault, from every state that has it. -/
def Obligations.EveryStepKeepsTheInvariant : Prop :=
  ∀ s t : State, Inv s → step s = .next t → t.fault = none → Inv t

/-- 49_properties.md R277: the valid slots are the `rob_count` slots from the head on, holding consecutive sequence numbers
from `retired_count + 1`. -/
def Obligations.EveryStepKeepsTheWindow : Prop :=
  ∀ s t : State, Inv s → step s = .next t → t.fault = none →
    (∀ k < t.cfg.robSize, (t.robAt ((t.robHead + k) % t.cfg.robSize)).valid = true ↔ k < robCount t) ∧
    (∀ k, k + 1 < robCount t →
      (t.robAt ((t.robHead + (k + 1)) % t.cfg.robSize)).inst.seq =
        (t.robAt ((t.robHead + k) % t.cfg.robSize)).inst.seq + 1) ∧
    (robCount t ≠ 0 → (t.robAt t.robHead).inst.seq = t.retiredCount + 1)

/-- 49_properties.md R274: RAT soundness, both directions, and R275's first half: two registers never map to one tag. -/
def Obligations.EveryStepKeepsRatSoundness : Prop :=
  ∀ s t : State, Inv s → step s = .next t → t.fault = none →
    RatOk t ∧
    (∀ r < t.cfg.numArchRegs, t.ratAt r = none ↔
      ∀ u < t.cfg.robSize, (t.robAt u).valid = true → (t.robAt u).inst.dest ≠ some r) ∧
    ∀ r < t.cfg.numArchRegs, ∀ q < t.cfg.numArchRegs, ∀ g, t.ratAt r = some g → t.ratAt q = some g → r = q

/-- 49_properties.md section 3: an unready source waits on a live, older, unfinished producer of its register. -/
def Obligations.EveryStepKeepsPendingTagsLive : Prop :=
  ∀ s t : State, Inv s → step s = .next t → t.fault = none → TagsOk t

/-- 49_properties.md R280: in a valid slot `ready` implies `exec`, and `exec` implies both source-ready flags. -/
def Obligations.EveryStepKeepsFlagImplications : Prop :=
  ∀ s t : State, Inv s → step s = .next t → t.fault = none →
    ∀ x ∈ t.rob, x.valid = true →
      (x.ready = true → x.exec = true) ∧ (x.exec = true → x.inst.src1Ready = true ∧ x.inst.src2Ready = true)

/-- 49_properties.md R278: every travelling copy belongs to a valid, executing, unready slot with its sequence number, and
no two share a sequence number. -/
def Obligations.EveryStepKeepsTravellingCopies : Prop :=
  ∀ s t : State, Inv s → step s = .next t → t.fault = none →
    (∀ c ∈ travellers t, ∃ u < t.cfg.robSize, c.drTag = some u ∧ (t.robAt u).valid = true ∧
      (t.robAt u).inst.seq = c.seq ∧ (t.robAt u).exec = true ∧ (t.robAt u).ready = false) ∧
    ((travellers t).map (fun c => c.seq)).Nodup

/-- 49_properties.md R282: under the in-order policy the scheduled instructions are always the oldest ones of the ROB, so
none is scheduled while an older one is not, and those of one tick enter the schedule latch in increasing `seq`. -/
def Obligations.EveryStepKeepsInOrderScheduling : Prop :=
  ∀ s t : State, Inv s → InOrderPrefix s → step s = .next t → t.fault = none →
    InOrderPrefix t ∧
    (s.cfg.schedPolicy = .inOrder → ∀ i j, i < j → (t.scAt i).valid = true → (t.scAt j).valid = true →
      (t.scAt i).inst.seq < (t.scAt j).inst.seq)

/-- 49_properties.md R284 in one tick: a slot with a source that waits on a tag is scheduled no earlier than the tick in
which Writeback takes that tag's instruction from the execute latch. -/
def Obligations.TrueDependenciesAreHonoured : Prop :=
  ∀ (s t : State) (u g : Nat), Inv s → step s = .next t → t.fault = none →
    u < s.cfg.robSize → (s.robAt u).valid = true →
    ((s.robAt u).inst.src1Ready = false ∧ (s.robAt u).inst.src1Tag = some g) ∨
      ((s.robAt u).inst.src2Ready = false ∧ (s.robAt u).inst.src2Tag = some g) →
    (t.robAt u).exec = true →
    (t.robAt g).ready = true ∧ ∃ l ∈ s.latchEX, l.valid = true ∧ l.inst.drTag = some g

/-- 42_exeq.md and 70_reset_and_hazards.md R346: with EXEQ_SIZE at least PIPE_WIDTH * LOAD_LATENCY and WB_WIDTH at least
2 * PIPE_WIDTH no step ever faults, and no entry ever waits for an execute lane. -/
def Obligations.SizedConfigurationNeverFaults : Prop :=
  ∀ s : State, Inv s → Sized s.cfg → Spread s → ∃ t, step s = .next t ∧ t.fault = none ∧ Spread t

/-! ## The life of an instruction -/

/-- 48_instruction_classes.md R257: every instruction is in exactly one of the eleven states at a tick boundary. -/
def Obligations.EveryInstructionIsInOnePhase : Prop :=
  ∀ (s : State) (q : Nat), Inv s → 1 ≤ q →
    ∃ p, inPhase s q p = true ∧ ∀ p', inPhase s q p' = true → p' = p

/-- 48_instruction_classes.md R258: in one tick every instruction stays where the table lets it stay or moves along the
table, never backwards and never past Commit. -/
def Obligations.EveryInstructionMovesForward : Prop :=
  ∀ (s t : State) (q : Nat) (p p' : Phase), Inv s → step s = .next t → t.fault = none → 1 ≤ q →
    inPhase s q p = true → inPhase t q p' = true → p' ∈ p.successors

/-- 48_instruction_classes.md section 5 and 49_properties.md section 8: the last record of the stream, met by a machine with
nothing in it, is fetched by its exec and then decoded, issued ready, scheduled, executed for LAT ticks, written back
and committed, one step a tick, and the run halts after 6 + LAT ticks with one more instruction retired: 7 for ALU, ST, CBR
and OTHER, 6 + LOAD_LATENCY for LD. The record is the one `exec` is given, and that it takes the place of the stream's last
word (an offered record counts as one read) is the model's choice (log 8); of the stream's own record it is
`Obligations.OneRecordTraceTakesSevenStages`. -/
def Obligations.RecordAloneRunsThroughTheSevenStages : Prop :=
  ∀ (i : Instr) (s : State), Idle s → i.wellFormed s.cfg.numArchRegs = true → s.tracePos + 1 = s.trace.length →
    lat s.cfg i.op = 1 ∨ 1 ≤ s.cfg.exeqSize →
    ∃ t, exec i s = .next t ∧
      (∀ k p, (aloneTimeline (lat s.cfg i.op))[k]? = some p →
        ∃ u, ticks k t = .next u ∧ inPhase u (s.lastSeq + 1) p = true ∧ (u.halted = true ↔ p = .committed)) ∧
      ∃ u, ticks (5 + lat s.cfg i.op) t = .next u ∧ u.halted = true ∧ u.fault = none ∧
        u.retiredCount = s.retiredCount + 1 ∧ u.cycleCount = s.cycleCount + (6 + lat s.cfg i.op) ∧
        u.haltSeq = s.lastSeq + 1 ∧ robCount u = 0 ∧ travellers u = [] ∧ (∀ e ∈ u.rat, e = none) ∧
        u.robHead = (s.robHead + 1) % s.cfg.robSize ∧ u.robTail = u.robHead

/-- 49_properties.md section 6: where an instruction stands within a latch or the EXEQ does not matter: from two states that
differ only in the order of the lanes of each latch and of the EXEQ's slots, a step leaves the same RAT, ROB, counters and
run state and the same records in each latch and in the EXEQ, in some order; and it faults from both or from neither. -/
def Obligations.LanePlacementIsImmaterial : Prop :=
  ∀ s s' t : State, Inv s →
    s.latchFE.Perm s'.latchFE → s.latchID.Perm s'.latchID → s.latchSC.Perm s'.latchSC →
    s.latchEX.Perm s'.latchEX → s.exeq.Perm s'.exeq →
    s' = { s with latchFE := s'.latchFE, latchID := s'.latchID, latchSC := s'.latchSC, latchEX := s'.latchEX,
                  exeq := s'.exeq } →
    step s = .next t →
    ∃ t', step s' = .next t' ∧ t'.fault = t.fault ∧
      (t.fault = none →
        t' = { t with latchFE := t'.latchFE, latchID := t'.latchID, latchSC := t'.latchSC, latchEX := t'.latchEX,
                      exeq := t'.exeq } ∧
        (laneRecords t.latchFE).Perm (laneRecords t'.latchFE) ∧ (laneRecords t.latchID).Perm (laneRecords t'.latchID) ∧
        (laneRecords t.latchSC).Perm (laneRecords t'.latchSC) ∧ (laneRecords t.latchEX).Perm (laneRecords t'.latchEX) ∧
        (exeqRecords t).Perm (exeqRecords t'))

/-! ## Progress, the end of a run, and what nothing reads -/

/-- 49_properties.md section 8: the instruction at the ROB head is never blocked on an operand. -/
def Obligations.RobHeadIsNeverBlocked : Prop :=
  ∀ s : State, Inv s → robCount s ≠ 0 → operandsReady s s.robHead = true ∧
    (candidate s s.robHead = true → select s = some s.robHead)

/-- 49_properties.md section 8: every run ends, from any state with the invariant, in a halt or a fault; in a halt where the
configuration is large enough. -/
def Obligations.EveryRunEnds : Prop :=
  ∀ s : State, Inv s → ∃ n t, ticks n s = .next t ∧ ended t = true ∧ (Sized s.cfg → Spread s → t.halted = true)

/-- 49_properties.md section 8 and 47_commit.md: a halted machine is empty, every register is unmapped, and everything
fetched has retired. -/
def Obligations.HaltedMachineIsEmpty : Prop :=
  ∀ s : State, Inv s → s.halted = true →
    s.eosSeen = true ∧ s.retiredCount = s.haltSeq ∧ s.haltSeq = s.lastSeq ∧ robCount s = 0 ∧
    laneCount s.latchFE = 0 ∧ laneCount s.latchID = 0 ∧ travellers s = [] ∧ ∀ r < s.cfg.numArchRegs, s.ratAt r = none

/-- 70_reset_and_hazards.md R342: no rule reads the record of an invalid slot or lane: two states that differ only there
step to states that differ only there. -/
def Obligations.UnreadRecordsDoNotMatter : Prop :=
  ∀ s s' t : State, s.visible = s'.visible → step s = .next t → ∃ t', step s' = .next t' ∧ t.visible = t'.visible

/-! ## The end of the input, and the round trip, on the stream's own words -/

/-- 30_encoding.md section 4 and 43_driver_frontend.md section 2: the step that reads a malformed word (a reserved op code or a
register out of range) consumes it, and the step that reads the end of the stream consumes nothing; both give no sequence
number, set `eos_seen` with `halt_seq` at `last_seq`, leave in the fetch latch only records it held, and halt exactly if
nothing was ever fetched. In whichever lane the end of the input is met, after the records of the lanes before it, the threshold is the last
number given, and what stood at the read position is a malformed word or the end. -/
def Obligations.InputEndsAtMalformedWordOrEnd : Prop :=
  (∀ (s : State) (w : Word), Inv s → s.halted = false → s.eosSeen = false →
    exeqDemand s ≤ exeqFree s → fetchRoom s = true →
    s.trace[s.tracePos]? = some w → malformed s.cfg.numArchRegs w = true →
    ∃ t, step s = .next t ∧ t.eosSeen = true ∧ t.haltSeq = s.lastSeq ∧ t.lastSeq = s.lastSeq ∧
      t.tracePos = s.tracePos + 1 ∧ (t.halted = true ↔ s.lastSeq = 0) ∧
      (laneRecords t.latchFE).Sublist (laneRecords s.latchFE) ∧ t.cycleCount = s.cycleCount + 1 ∧ t.fault = none) ∧
  (∀ s : State, Inv s → s.halted = false → s.eosSeen = false →
    exeqDemand s ≤ exeqFree s → fetchRoom s = true → s.trace.length ≤ s.tracePos →
    ∃ t, step s = .next t ∧ t.eosSeen = true ∧ t.haltSeq = s.lastSeq ∧ t.lastSeq = s.lastSeq ∧
      t.tracePos = s.tracePos ∧ (t.halted = true ↔ s.lastSeq = 0) ∧
      (laneRecords t.latchFE).Sublist (laneRecords s.latchFE) ∧ t.cycleCount = s.cycleCount + 1 ∧ t.fault = none) ∧
  ∀ s t : State, Inv s → step s = .next t → s.eosSeen = false → t.eosSeen = true →
    t.haltSeq = t.lastSeq ∧ (t.halted = true ↔ t.lastSeq = 0) ∧ t.fault = none ∧
    ((t.tracePos = t.lastSeq ∧ s.trace.length ≤ t.lastSeq) ∨
      (t.tracePos = t.lastSeq + 1 ∧ ∃ w, s.trace[t.lastSeq]? = some w ∧ malformed s.cfg.numArchRegs w = true))

/-- 49_properties.md R290: from reset, a trace of one record takes one tick for each stage: fetched, decoded, issued with both
sources ready, scheduled, executed for LAT ticks, written back and committed; it halts in tick 6 + LAT and no earlier, with
one retirement: in tick 7 for every single-cycle record. -/
def Obligations.OneRecordTraceTakesSevenStages : Prop :=
  ∀ (cfg : Config) (i : Instr), i.wellFormed cfg.numArchRegs = true → lat cfg i.op = 1 ∨ 1 ≤ cfg.exeqSize →
    (∀ k p, (aloneTimeline (lat cfg i.op))[k]? = some p →
      ∃ u, ticks (k + 1) (State.resetWith cfg [encode i]) = .next u ∧ inPhase u 1 p = true ∧
        (u.halted = true ↔ p = .committed)) ∧
    ∃ u, ticks (6 + lat cfg i.op) (State.resetWith cfg [encode i]) = .next u ∧ u.halted = true ∧ u.fault = none ∧
      u.retiredCount = 1 ∧ u.cycleCount = 6 + lat cfg i.op
end

