-- ==== Sys2Proof/Laws/State.lean ====
section
/-! SUPPORT. What each named update of the state does to each field, and what reading an array gives after writing it. -/

namespace Sys2Proof.Machine

/-! ## setRat -/

section
variable (s : State) (r : Nat) (v : Option Nat)
@[simp] theorem State.setRat_cfg : (s.setRat r v).cfg = s.cfg := rfl
@[simp] theorem State.setRat_rat : (s.setRat r v).rat = s.rat.set r v := rfl
@[simp] theorem State.setRat_rob : (s.setRat r v).rob = s.rob := rfl
@[simp] theorem State.setRat_robHead : (s.setRat r v).robHead = s.robHead := rfl
@[simp] theorem State.setRat_robTail : (s.setRat r v).robTail = s.robTail := rfl
@[simp] theorem State.setRat_exeq : (s.setRat r v).exeq = s.exeq := rfl
@[simp] theorem State.setRat_latchFE : (s.setRat r v).latchFE = s.latchFE := rfl
@[simp] theorem State.setRat_latchID : (s.setRat r v).latchID = s.latchID := rfl
@[simp] theorem State.setRat_latchSC : (s.setRat r v).latchSC = s.latchSC := rfl
@[simp] theorem State.setRat_latchEX : (s.setRat r v).latchEX = s.latchEX := rfl
@[simp] theorem State.setRat_lastSeq : (s.setRat r v).lastSeq = s.lastSeq := rfl
@[simp] theorem State.setRat_eosSeen : (s.setRat r v).eosSeen = s.eosSeen := rfl
@[simp] theorem State.setRat_haltSeq : (s.setRat r v).haltSeq = s.haltSeq := rfl
@[simp] theorem State.setRat_halted : (s.setRat r v).halted = s.halted := rfl
@[simp] theorem State.setRat_fault : (s.setRat r v).fault = s.fault := rfl
@[simp] theorem State.setRat_cycleCount : (s.setRat r v).cycleCount = s.cycleCount := rfl
@[simp] theorem State.setRat_retiredCount : (s.setRat r v).retiredCount = s.retiredCount := rfl
@[simp] theorem State.setRat_trace : (s.setRat r v).trace = s.trace := rfl
@[simp] theorem State.setRat_tracePos : (s.setRat r v).tracePos = s.tracePos := rfl
end

/-! ## setRob -/

section
variable (s : State) (t : Nat) (x : RobSlot)
@[simp] theorem State.setRob_cfg : (s.setRob t x).cfg = s.cfg := rfl
@[simp] theorem State.setRob_rat : (s.setRob t x).rat = s.rat := rfl
@[simp] theorem State.setRob_rob : (s.setRob t x).rob = s.rob.set t x := rfl
@[simp] theorem State.setRob_robHead : (s.setRob t x).robHead = s.robHead := rfl
@[simp] theorem State.setRob_robTail : (s.setRob t x).robTail = s.robTail := rfl
@[simp] theorem State.setRob_exeq : (s.setRob t x).exeq = s.exeq := rfl
@[simp] theorem State.setRob_latchFE : (s.setRob t x).latchFE = s.latchFE := rfl
@[simp] theorem State.setRob_latchID : (s.setRob t x).latchID = s.latchID := rfl
@[simp] theorem State.setRob_latchSC : (s.setRob t x).latchSC = s.latchSC := rfl
@[simp] theorem State.setRob_latchEX : (s.setRob t x).latchEX = s.latchEX := rfl
@[simp] theorem State.setRob_lastSeq : (s.setRob t x).lastSeq = s.lastSeq := rfl
@[simp] theorem State.setRob_eosSeen : (s.setRob t x).eosSeen = s.eosSeen := rfl
@[simp] theorem State.setRob_haltSeq : (s.setRob t x).haltSeq = s.haltSeq := rfl
@[simp] theorem State.setRob_halted : (s.setRob t x).halted = s.halted := rfl
@[simp] theorem State.setRob_fault : (s.setRob t x).fault = s.fault := rfl
@[simp] theorem State.setRob_cycleCount : (s.setRob t x).cycleCount = s.cycleCount := rfl
@[simp] theorem State.setRob_retiredCount : (s.setRob t x).retiredCount = s.retiredCount := rfl
@[simp] theorem State.setRob_trace : (s.setRob t x).trace = s.trace := rfl
@[simp] theorem State.setRob_tracePos : (s.setRob t x).tracePos = s.tracePos := rfl
end

/-! ## setExeq -/

section
variable (s : State) (q : Nat) (x : ExeqSlot)
@[simp] theorem State.setExeq_cfg : (s.setExeq q x).cfg = s.cfg := rfl
@[simp] theorem State.setExeq_rat : (s.setExeq q x).rat = s.rat := rfl
@[simp] theorem State.setExeq_rob : (s.setExeq q x).rob = s.rob := rfl
@[simp] theorem State.setExeq_robHead : (s.setExeq q x).robHead = s.robHead := rfl
@[simp] theorem State.setExeq_robTail : (s.setExeq q x).robTail = s.robTail := rfl
@[simp] theorem State.setExeq_exeq : (s.setExeq q x).exeq = s.exeq.set q x := rfl
@[simp] theorem State.setExeq_latchFE : (s.setExeq q x).latchFE = s.latchFE := rfl
@[simp] theorem State.setExeq_latchID : (s.setExeq q x).latchID = s.latchID := rfl
@[simp] theorem State.setExeq_latchSC : (s.setExeq q x).latchSC = s.latchSC := rfl
@[simp] theorem State.setExeq_latchEX : (s.setExeq q x).latchEX = s.latchEX := rfl
@[simp] theorem State.setExeq_lastSeq : (s.setExeq q x).lastSeq = s.lastSeq := rfl
@[simp] theorem State.setExeq_eosSeen : (s.setExeq q x).eosSeen = s.eosSeen := rfl
@[simp] theorem State.setExeq_haltSeq : (s.setExeq q x).haltSeq = s.haltSeq := rfl
@[simp] theorem State.setExeq_halted : (s.setExeq q x).halted = s.halted := rfl
@[simp] theorem State.setExeq_fault : (s.setExeq q x).fault = s.fault := rfl
@[simp] theorem State.setExeq_cycleCount : (s.setExeq q x).cycleCount = s.cycleCount := rfl
@[simp] theorem State.setExeq_retiredCount : (s.setExeq q x).retiredCount = s.retiredCount := rfl
@[simp] theorem State.setExeq_trace : (s.setExeq q x).trace = s.trace := rfl
@[simp] theorem State.setExeq_tracePos : (s.setExeq q x).tracePos = s.tracePos := rfl
end

/-! ## setFE -/

section
variable (s : State) (i : Nat) (x : Lane)
@[simp] theorem State.setFE_cfg : (s.setFE i x).cfg = s.cfg := rfl
@[simp] theorem State.setFE_rat : (s.setFE i x).rat = s.rat := rfl
@[simp] theorem State.setFE_rob : (s.setFE i x).rob = s.rob := rfl
@[simp] theorem State.setFE_robHead : (s.setFE i x).robHead = s.robHead := rfl
@[simp] theorem State.setFE_robTail : (s.setFE i x).robTail = s.robTail := rfl
@[simp] theorem State.setFE_exeq : (s.setFE i x).exeq = s.exeq := rfl
@[simp] theorem State.setFE_latchFE : (s.setFE i x).latchFE = s.latchFE.set i x := rfl
@[simp] theorem State.setFE_latchID : (s.setFE i x).latchID = s.latchID := rfl
@[simp] theorem State.setFE_latchSC : (s.setFE i x).latchSC = s.latchSC := rfl
@[simp] theorem State.setFE_latchEX : (s.setFE i x).latchEX = s.latchEX := rfl
@[simp] theorem State.setFE_lastSeq : (s.setFE i x).lastSeq = s.lastSeq := rfl
@[simp] theorem State.setFE_eosSeen : (s.setFE i x).eosSeen = s.eosSeen := rfl
@[simp] theorem State.setFE_haltSeq : (s.setFE i x).haltSeq = s.haltSeq := rfl
@[simp] theorem State.setFE_halted : (s.setFE i x).halted = s.halted := rfl
@[simp] theorem State.setFE_fault : (s.setFE i x).fault = s.fault := rfl
@[simp] theorem State.setFE_cycleCount : (s.setFE i x).cycleCount = s.cycleCount := rfl
@[simp] theorem State.setFE_retiredCount : (s.setFE i x).retiredCount = s.retiredCount := rfl
@[simp] theorem State.setFE_trace : (s.setFE i x).trace = s.trace := rfl
@[simp] theorem State.setFE_tracePos : (s.setFE i x).tracePos = s.tracePos := rfl
end

/-! ## setID -/

section
variable (s : State) (i : Nat) (x : Lane)
@[simp] theorem State.setID_cfg : (s.setID i x).cfg = s.cfg := rfl
@[simp] theorem State.setID_rat : (s.setID i x).rat = s.rat := rfl
@[simp] theorem State.setID_rob : (s.setID i x).rob = s.rob := rfl
@[simp] theorem State.setID_robHead : (s.setID i x).robHead = s.robHead := rfl
@[simp] theorem State.setID_robTail : (s.setID i x).robTail = s.robTail := rfl
@[simp] theorem State.setID_exeq : (s.setID i x).exeq = s.exeq := rfl
@[simp] theorem State.setID_latchFE : (s.setID i x).latchFE = s.latchFE := rfl
@[simp] theorem State.setID_latchID : (s.setID i x).latchID = s.latchID.set i x := rfl
@[simp] theorem State.setID_latchSC : (s.setID i x).latchSC = s.latchSC := rfl
@[simp] theorem State.setID_latchEX : (s.setID i x).latchEX = s.latchEX := rfl
@[simp] theorem State.setID_lastSeq : (s.setID i x).lastSeq = s.lastSeq := rfl
@[simp] theorem State.setID_eosSeen : (s.setID i x).eosSeen = s.eosSeen := rfl
@[simp] theorem State.setID_haltSeq : (s.setID i x).haltSeq = s.haltSeq := rfl
@[simp] theorem State.setID_halted : (s.setID i x).halted = s.halted := rfl
@[simp] theorem State.setID_fault : (s.setID i x).fault = s.fault := rfl
@[simp] theorem State.setID_cycleCount : (s.setID i x).cycleCount = s.cycleCount := rfl
@[simp] theorem State.setID_retiredCount : (s.setID i x).retiredCount = s.retiredCount := rfl
@[simp] theorem State.setID_trace : (s.setID i x).trace = s.trace := rfl
@[simp] theorem State.setID_tracePos : (s.setID i x).tracePos = s.tracePos := rfl
end

/-! ## setSC -/

section
variable (s : State) (i : Nat) (x : Lane)
@[simp] theorem State.setSC_cfg : (s.setSC i x).cfg = s.cfg := rfl
@[simp] theorem State.setSC_rat : (s.setSC i x).rat = s.rat := rfl
@[simp] theorem State.setSC_rob : (s.setSC i x).rob = s.rob := rfl
@[simp] theorem State.setSC_robHead : (s.setSC i x).robHead = s.robHead := rfl
@[simp] theorem State.setSC_robTail : (s.setSC i x).robTail = s.robTail := rfl
@[simp] theorem State.setSC_exeq : (s.setSC i x).exeq = s.exeq := rfl
@[simp] theorem State.setSC_latchFE : (s.setSC i x).latchFE = s.latchFE := rfl
@[simp] theorem State.setSC_latchID : (s.setSC i x).latchID = s.latchID := rfl
@[simp] theorem State.setSC_latchSC : (s.setSC i x).latchSC = s.latchSC.set i x := rfl
@[simp] theorem State.setSC_latchEX : (s.setSC i x).latchEX = s.latchEX := rfl
@[simp] theorem State.setSC_lastSeq : (s.setSC i x).lastSeq = s.lastSeq := rfl
@[simp] theorem State.setSC_eosSeen : (s.setSC i x).eosSeen = s.eosSeen := rfl
@[simp] theorem State.setSC_haltSeq : (s.setSC i x).haltSeq = s.haltSeq := rfl
@[simp] theorem State.setSC_halted : (s.setSC i x).halted = s.halted := rfl
@[simp] theorem State.setSC_fault : (s.setSC i x).fault = s.fault := rfl
@[simp] theorem State.setSC_cycleCount : (s.setSC i x).cycleCount = s.cycleCount := rfl
@[simp] theorem State.setSC_retiredCount : (s.setSC i x).retiredCount = s.retiredCount := rfl
@[simp] theorem State.setSC_trace : (s.setSC i x).trace = s.trace := rfl
@[simp] theorem State.setSC_tracePos : (s.setSC i x).tracePos = s.tracePos := rfl
end

/-! ## setEX -/

section
variable (s : State) (k : Nat) (x : Lane)
@[simp] theorem State.setEX_cfg : (s.setEX k x).cfg = s.cfg := rfl
@[simp] theorem State.setEX_rat : (s.setEX k x).rat = s.rat := rfl
@[simp] theorem State.setEX_rob : (s.setEX k x).rob = s.rob := rfl
@[simp] theorem State.setEX_robHead : (s.setEX k x).robHead = s.robHead := rfl
@[simp] theorem State.setEX_robTail : (s.setEX k x).robTail = s.robTail := rfl
@[simp] theorem State.setEX_exeq : (s.setEX k x).exeq = s.exeq := rfl
@[simp] theorem State.setEX_latchFE : (s.setEX k x).latchFE = s.latchFE := rfl
@[simp] theorem State.setEX_latchID : (s.setEX k x).latchID = s.latchID := rfl
@[simp] theorem State.setEX_latchSC : (s.setEX k x).latchSC = s.latchSC := rfl
@[simp] theorem State.setEX_latchEX : (s.setEX k x).latchEX = s.latchEX.set k x := rfl
@[simp] theorem State.setEX_lastSeq : (s.setEX k x).lastSeq = s.lastSeq := rfl
@[simp] theorem State.setEX_eosSeen : (s.setEX k x).eosSeen = s.eosSeen := rfl
@[simp] theorem State.setEX_haltSeq : (s.setEX k x).haltSeq = s.haltSeq := rfl
@[simp] theorem State.setEX_halted : (s.setEX k x).halted = s.halted := rfl
@[simp] theorem State.setEX_fault : (s.setEX k x).fault = s.fault := rfl
@[simp] theorem State.setEX_cycleCount : (s.setEX k x).cycleCount = s.cycleCount := rfl
@[simp] theorem State.setEX_retiredCount : (s.setEX k x).retiredCount = s.retiredCount := rfl
@[simp] theorem State.setEX_trace : (s.setEX k x).trace = s.trace := rfl
@[simp] theorem State.setEX_tracePos : (s.setEX k x).tracePos = s.tracePos := rfl
end

/-! ## setFault -/

section
variable (s : State) (c : FaultCode)
@[simp] theorem State.setFault_cfg : (s.setFault c).cfg = s.cfg := rfl
@[simp] theorem State.setFault_rat : (s.setFault c).rat = s.rat := rfl
@[simp] theorem State.setFault_rob : (s.setFault c).rob = s.rob := rfl
@[simp] theorem State.setFault_robHead : (s.setFault c).robHead = s.robHead := rfl
@[simp] theorem State.setFault_robTail : (s.setFault c).robTail = s.robTail := rfl
@[simp] theorem State.setFault_exeq : (s.setFault c).exeq = s.exeq := rfl
@[simp] theorem State.setFault_latchFE : (s.setFault c).latchFE = s.latchFE := rfl
@[simp] theorem State.setFault_latchID : (s.setFault c).latchID = s.latchID := rfl
@[simp] theorem State.setFault_latchSC : (s.setFault c).latchSC = s.latchSC := rfl
@[simp] theorem State.setFault_latchEX : (s.setFault c).latchEX = s.latchEX := rfl
@[simp] theorem State.setFault_lastSeq : (s.setFault c).lastSeq = s.lastSeq := rfl
@[simp] theorem State.setFault_eosSeen : (s.setFault c).eosSeen = s.eosSeen := rfl
@[simp] theorem State.setFault_haltSeq : (s.setFault c).haltSeq = s.haltSeq := rfl
@[simp] theorem State.setFault_halted : (s.setFault c).halted = s.halted := rfl
@[simp] theorem State.setFault_fault : (s.setFault c).fault = some c := rfl
@[simp] theorem State.setFault_cycleCount : (s.setFault c).cycleCount = s.cycleCount := rfl
@[simp] theorem State.setFault_retiredCount : (s.setFault c).retiredCount = s.retiredCount := rfl
@[simp] theorem State.setFault_trace : (s.setFault c).trace = s.trace := rfl
@[simp] theorem State.setFault_tracePos : (s.setFault c).tracePos = s.tracePos := rfl
end

/-! ## Reading after writing -/

/-- Reading a list with a default after setting one entry. -/
theorem getD_set {α : Type} (l : List α) (i j : Nat) (x d : α) :
    (l.set i x).getD j d = if j = i ∧ i < l.length then x else l.getD j d := by
  simp only [List.getD_eq_getElem?_getD, List.getElem?_set]
  by_cases h : i = j
  · subst h
    by_cases hl : i < l.length <;> simp [hl]
  · simp [h, Ne.symm h]

theorem State.ratAt_setRat (s : State) (i j : Nat) (x : Option Nat) :
    (s.setRat i x).ratAt j = if j = i ∧ i < s.rat.length then x else s.ratAt j := getD_set ..

@[simp] theorem State.robAt_setRat (s : State) (i j : Nat) (x : Option Nat) : (s.setRat i x).robAt j = s.robAt j := rfl
@[simp] theorem State.exeqAt_setRat (s : State) (i j : Nat) (x : Option Nat) : (s.setRat i x).exeqAt j = s.exeqAt j := rfl
@[simp] theorem State.feAt_setRat (s : State) (i j : Nat) (x : Option Nat) : (s.setRat i x).feAt j = s.feAt j := rfl
@[simp] theorem State.idAt_setRat (s : State) (i j : Nat) (x : Option Nat) : (s.setRat i x).idAt j = s.idAt j := rfl
@[simp] theorem State.scAt_setRat (s : State) (i j : Nat) (x : Option Nat) : (s.setRat i x).scAt j = s.scAt j := rfl
@[simp] theorem State.exAt_setRat (s : State) (i j : Nat) (x : Option Nat) : (s.setRat i x).exAt j = s.exAt j := rfl

theorem State.robAt_setRob (s : State) (i j : Nat) (x : RobSlot) :
    (s.setRob i x).robAt j = if j = i ∧ i < s.rob.length then x else s.robAt j := getD_set ..

@[simp] theorem State.ratAt_setRob (s : State) (i j : Nat) (x : RobSlot) : (s.setRob i x).ratAt j = s.ratAt j := rfl
@[simp] theorem State.exeqAt_setRob (s : State) (i j : Nat) (x : RobSlot) : (s.setRob i x).exeqAt j = s.exeqAt j := rfl
@[simp] theorem State.feAt_setRob (s : State) (i j : Nat) (x : RobSlot) : (s.setRob i x).feAt j = s.feAt j := rfl
@[simp] theorem State.idAt_setRob (s : State) (i j : Nat) (x : RobSlot) : (s.setRob i x).idAt j = s.idAt j := rfl
@[simp] theorem State.scAt_setRob (s : State) (i j : Nat) (x : RobSlot) : (s.setRob i x).scAt j = s.scAt j := rfl
@[simp] theorem State.exAt_setRob (s : State) (i j : Nat) (x : RobSlot) : (s.setRob i x).exAt j = s.exAt j := rfl

theorem State.exeqAt_setExeq (s : State) (i j : Nat) (x : ExeqSlot) :
    (s.setExeq i x).exeqAt j = if j = i ∧ i < s.exeq.length then x else s.exeqAt j := getD_set ..

@[simp] theorem State.ratAt_setExeq (s : State) (i j : Nat) (x : ExeqSlot) : (s.setExeq i x).ratAt j = s.ratAt j := rfl
@[simp] theorem State.robAt_setExeq (s : State) (i j : Nat) (x : ExeqSlot) : (s.setExeq i x).robAt j = s.robAt j := rfl
@[simp] theorem State.feAt_setExeq (s : State) (i j : Nat) (x : ExeqSlot) : (s.setExeq i x).feAt j = s.feAt j := rfl
@[simp] theorem State.idAt_setExeq (s : State) (i j : Nat) (x : ExeqSlot) : (s.setExeq i x).idAt j = s.idAt j := rfl
@[simp] theorem State.scAt_setExeq (s : State) (i j : Nat) (x : ExeqSlot) : (s.setExeq i x).scAt j = s.scAt j := rfl
@[simp] theorem State.exAt_setExeq (s : State) (i j : Nat) (x : ExeqSlot) : (s.setExeq i x).exAt j = s.exAt j := rfl

theorem State.feAt_setFE (s : State) (i j : Nat) (x : Lane) :
    (s.setFE i x).feAt j = if j = i ∧ i < s.latchFE.length then x else s.feAt j := getD_set ..

@[simp] theorem State.ratAt_setFE (s : State) (i j : Nat) (x : Lane) : (s.setFE i x).ratAt j = s.ratAt j := rfl
@[simp] theorem State.robAt_setFE (s : State) (i j : Nat) (x : Lane) : (s.setFE i x).robAt j = s.robAt j := rfl
@[simp] theorem State.exeqAt_setFE (s : State) (i j : Nat) (x : Lane) : (s.setFE i x).exeqAt j = s.exeqAt j := rfl
@[simp] theorem State.idAt_setFE (s : State) (i j : Nat) (x : Lane) : (s.setFE i x).idAt j = s.idAt j := rfl
@[simp] theorem State.scAt_setFE (s : State) (i j : Nat) (x : Lane) : (s.setFE i x).scAt j = s.scAt j := rfl
@[simp] theorem State.exAt_setFE (s : State) (i j : Nat) (x : Lane) : (s.setFE i x).exAt j = s.exAt j := rfl

theorem State.idAt_setID (s : State) (i j : Nat) (x : Lane) :
    (s.setID i x).idAt j = if j = i ∧ i < s.latchID.length then x else s.idAt j := getD_set ..

@[simp] theorem State.ratAt_setID (s : State) (i j : Nat) (x : Lane) : (s.setID i x).ratAt j = s.ratAt j := rfl
@[simp] theorem State.robAt_setID (s : State) (i j : Nat) (x : Lane) : (s.setID i x).robAt j = s.robAt j := rfl
@[simp] theorem State.exeqAt_setID (s : State) (i j : Nat) (x : Lane) : (s.setID i x).exeqAt j = s.exeqAt j := rfl
@[simp] theorem State.feAt_setID (s : State) (i j : Nat) (x : Lane) : (s.setID i x).feAt j = s.feAt j := rfl
@[simp] theorem State.scAt_setID (s : State) (i j : Nat) (x : Lane) : (s.setID i x).scAt j = s.scAt j := rfl
@[simp] theorem State.exAt_setID (s : State) (i j : Nat) (x : Lane) : (s.setID i x).exAt j = s.exAt j := rfl

theorem State.scAt_setSC (s : State) (i j : Nat) (x : Lane) :
    (s.setSC i x).scAt j = if j = i ∧ i < s.latchSC.length then x else s.scAt j := getD_set ..

@[simp] theorem State.ratAt_setSC (s : State) (i j : Nat) (x : Lane) : (s.setSC i x).ratAt j = s.ratAt j := rfl
@[simp] theorem State.robAt_setSC (s : State) (i j : Nat) (x : Lane) : (s.setSC i x).robAt j = s.robAt j := rfl
@[simp] theorem State.exeqAt_setSC (s : State) (i j : Nat) (x : Lane) : (s.setSC i x).exeqAt j = s.exeqAt j := rfl
@[simp] theorem State.feAt_setSC (s : State) (i j : Nat) (x : Lane) : (s.setSC i x).feAt j = s.feAt j := rfl
@[simp] theorem State.idAt_setSC (s : State) (i j : Nat) (x : Lane) : (s.setSC i x).idAt j = s.idAt j := rfl
@[simp] theorem State.exAt_setSC (s : State) (i j : Nat) (x : Lane) : (s.setSC i x).exAt j = s.exAt j := rfl

theorem State.exAt_setEX (s : State) (i j : Nat) (x : Lane) :
    (s.setEX i x).exAt j = if j = i ∧ i < s.latchEX.length then x else s.exAt j := getD_set ..

@[simp] theorem State.ratAt_setEX (s : State) (i j : Nat) (x : Lane) : (s.setEX i x).ratAt j = s.ratAt j := rfl
@[simp] theorem State.robAt_setEX (s : State) (i j : Nat) (x : Lane) : (s.setEX i x).robAt j = s.robAt j := rfl
@[simp] theorem State.exeqAt_setEX (s : State) (i j : Nat) (x : Lane) : (s.setEX i x).exeqAt j = s.exeqAt j := rfl
@[simp] theorem State.feAt_setEX (s : State) (i j : Nat) (x : Lane) : (s.setEX i x).feAt j = s.feAt j := rfl
@[simp] theorem State.idAt_setEX (s : State) (i j : Nat) (x : Lane) : (s.setEX i x).idAt j = s.idAt j := rfl
@[simp] theorem State.scAt_setEX (s : State) (i j : Nat) (x : Lane) : (s.setEX i x).scAt j = s.scAt j := rfl

end Sys2Proof.Machine
end

