-- ==== Sys2Proof/Laws/Res.lean ====
section
/-! SUPPORT. How results compose, and one induction principle for each of the tick's loops: a property the loop's body
keeps, the loop keeps. -/

namespace Sys2Proof.Machine

variable {α β : Type}

@[simp] theorem Res.bind_ok (a : α) (s : State) (f : α → State → Res β) : (Res.ok a s).bind f = f a s := rfl

@[simp] theorem Res.bind_raised (s : State) (f : α → State → Res β) :
    (Res.raised s : Res α).bind f = .raised s := rfl

@[simp] theorem Res.state_ok (a : α) (s : State) : (Res.ok a s).state = s := rfl

@[simp] theorem Res.state_raised (s : State) : (Res.raised s : Res α).state = s := rfl

/-- A sequence goes on exactly when both parts do. -/
theorem Res.bind_eq_ok {x : Res α} {f : α → State → Res β} {b : β} {t : State} :
    x.bind f = .ok b t ↔ ∃ a s, x = .ok a s ∧ f a s = .ok b t := by
  cases x with
  | ok a s => exact ⟨fun h => ⟨a, s, rfl, h⟩, fun ⟨_, _, he, h⟩ => by cases he; exact h⟩
  | raised s => exact ⟨fun h => (nomatch h), fun ⟨_, _, he, _⟩ => (nomatch he)⟩

/-- A sequence raises exactly when its first part does, or its second part after it. -/
theorem Res.bind_eq_raised {x : Res α} {f : α → State → Res β} {t : State} :
    x.bind f = .raised t ↔ x = .raised t ∨ ∃ a s, x = .ok a s ∧ f a s = .raised t := by
  cases x with
  | ok a s =>
    refine ⟨fun h => .inr ⟨a, s, rfl, h⟩, ?_⟩
    rintro (h | ⟨_, _, he, h⟩)
    · exact nomatch h
    · cases he; exact h
  | raised s =>
    refine ⟨fun h => .inl (by cases h; rfl), ?_⟩
    rintro (h | ⟨_, _, he, _⟩)
    · cases h; rfl
    · exact nomatch he

/-- What every lane's step keeps, a loop over lanes keeps. -/
theorem forLanes_keeps {P : State → Prop} {f : Nat → State → Res Unit}
    (hf : ∀ k s t, P s → f k s = .ok () t → P t) :
    ∀ ks s t, P s → forLanes f ks s = .ok () t → P t
  | [], s, t, hs, h => by cases h; exact hs
  | k :: ks, s, t, hs, h => by
    obtain ⟨_, u, hu, hr⟩ := Res.bind_eq_ok.mp h
    exact forLanes_keeps hf ks u t (hf k s u hs hu) hr

/-- A loop over lanes raises at a lane it reaches. -/
theorem forLanes_raises {P Q : State → Prop} {f : Nat → State → Res Unit}
    (hf : ∀ k s t, P s → f k s = .ok () t → P t) (hq : ∀ k s t, P s → f k s = .raised t → Q t) :
    ∀ ks s t, P s → forLanes f ks s = .raised t → Q t
  | [], _, _, _, h => nomatch h
  | k :: ks, s, t, hs, h => by
    rcases Res.bind_eq_raised.mp h with h | ⟨_, u, hu, hr⟩
    · exact hq k s t hs h
    · exact forLanes_raises hf hq ks u t (hf k s u hs hu) hr

/-- What removing and retiring the head keeps, Commit keeps. -/
theorem commitUpTo_keeps {P : State → Prop}
    (hf : ∀ s x t, P s → robHeadIsReady s = true → robRemoveHead s = .ok x t → P (retire x t)) :
    ∀ n s t, P s → commitUpTo n s = .ok () t → P t
  | 0, s, t, hs, h => by cases h; exact hs
  | n + 1, s, t, hs, h => by
    unfold commitUpTo at h
    split at h
    · rename_i hr
      obtain ⟨x, u, hu, hc⟩ := Res.bind_eq_ok.mp h
      exact commitUpTo_keeps hf n _ t (hf s x u hs hr hu) hc
    · cases h; exact hs

/-- What one issue keeps, Issue keeps. -/
theorem issueUpTo_keeps {P : State → Prop}
    (hf : ∀ s j t, P s → robHasSpace s = true → oldestLane s.latchID = some j → issueOne j s = .ok () t → P t) :
    ∀ n s t, P s → issueUpTo n s = .ok () t → P t
  | 0, s, t, hs, h => by cases h; exact hs
  | n + 1, s, t, hs, h => by
    unfold issueUpTo at h
    split at h
    · rename_i hsp
      split at h
      · cases h; exact hs
      · rename_i j hj
        obtain ⟨_, u, hu, hc⟩ := Res.bind_eq_ok.mp h
        exact issueUpTo_keeps hf n u t (hf s j u hs hsp hj hu) hc
    · cases h; exact hs

/-- What one move to the execute latch keeps, draining keeps. -/
theorem drainUpTo_keeps {P : State → Prop}
    (hf : ∀ s k x t, P s → freeExLane s = some k → exeqRemoveFinished s = some (x, t) → P (putEX k x t)) :
    ∀ n s, P s → P (drainUpTo n s)
  | 0, _, hs => hs
  | n + 1, s, hs => by
    unfold drainUpTo
    split
    · exact hs
    · rename_i k hk
      split
      · exact hs
      · rename_i x t ht
        exact drainUpTo_keeps hf n _ (hf s k x t hs hk ht)

/-- What one move to the decode latch keeps, Decode keeps. -/
theorem decodeLanes_keeps {P : State → Prop}
    (hf : ∀ s i j, P s → (s.idAt i).valid = false → (s.idAt i).stall = false → oldestLane s.latchFE = some j →
      P (moveToID i j s)) :
    ∀ is s, P s → P (decodeLanes is s)
  | [], _, hs => hs
  | i :: is, s, hs => by
    unfold decodeLanes
    split
    · exact decodeLanes_keeps hf is s hs
    · rename_i hfree
      split
      · exact hs
      · rename_i j hj
        simp only [Bool.or_eq_true, not_or, Bool.not_eq_true] at hfree
        exact decodeLanes_keeps hf is _ (hf s i j hs hfree.1 hfree.2 hj)

/-- What one read of the stream keeps, Fetch keeps. -/
theorem fetchLanes_keeps {P : State → Prop}
    (hf : ∀ s k item, P s → s.eosSeen = false → (s.feAt k).valid = false → (s.feAt k).stall = false →
      P (fetchInto k item s)) :
    ∀ ks first s, P s → P (fetchLanes ks first s)
  | [], _, _, hs => hs
  | k :: ks, first, s, hs => by
    unfold fetchLanes
    split
    · exact hs
    · rename_i he
      split
      · exact fetchLanes_keeps hf ks first s hs
      · rename_i hfree
        simp only [Bool.or_eq_true, not_or, Bool.not_eq_true] at hfree he
        exact fetchLanes_keeps hf ks none _ (hf s k _ hs he hfree.1 hfree.2)

end Sys2Proof.Machine
end

