-- ==== Sys2Proof/Laws/Ops.lean ====
section
/-! SUPPORT. One lemma per shared operation that says once everything it can do. -/

namespace Sys2Proof.Machine

/-! ## Age -/

/-- The key `oldestFrom` answers stands at the index it answers, and no key is smaller. -/
theorem oldestFrom_spec : ∀ (keys : List (Option Nat)) (k a j : Nat), oldestFrom k keys = some (a, j) →
    k ≤ j ∧ keys[j - k]? = some (some a) ∧ ∀ b, some b ∈ keys → a ≤ b
  | [], _, _, _, h => nomatch h
  | none :: xs, k, a, j, h => by
    obtain ⟨hk, hj, hb⟩ := oldestFrom_spec xs (k + 1) a j h
    refine ⟨by omega, ?_, fun b hm => hb b (by simpa using hm)⟩
    have : j - k = (j - (k + 1)) + 1 := by omega
    rw [this, List.getElem?_cons_succ, hj]
  | some c :: xs, k, a, j, h => by
    unfold oldestFrom at h
    split at h
    · rename_i hn
      cases h
      refine ⟨Nat.le_refl _, by simp, fun b hm => ?_⟩
      rcases List.mem_cons.mp hm with h | h
      · cases h; exact Nat.le_refl _
      · exact absurd h (oldestFrom_none xs (k + 1) hn b)
    · rename_i b i hs
      obtain ⟨hk, hj, hb⟩ := oldestFrom_spec xs (k + 1) b i hs
      split at h
      · rename_i hle
        cases h
        refine ⟨Nat.le_refl _, by simp, fun d hm => ?_⟩
        rcases List.mem_cons.mp hm with h | h
        · cases h; exact Nat.le_refl _
        · exact Nat.le_trans hle (hb d h)
      · rename_i hle
        cases h
        refine ⟨by omega, ?_, fun d hm => ?_⟩
        · have : j - k = (j - (k + 1)) + 1 := by omega
          rw [this, List.getElem?_cons_succ, hj]
        · rcases List.mem_cons.mp hm with h | h
          · cases h; omega
          · exact hb d h
where
  /-- Without an answer there is no key. -/
  oldestFrom_none : ∀ (keys : List (Option Nat)) (k : Nat), oldestFrom k keys = none → ∀ b, some b ∉ keys
    | [], _, _, _, hm => nomatch hm
    | none :: xs, k, h, b, hm => oldestFrom_none xs (k + 1) h b (by simpa using hm)
    | some c :: xs, k, h, _, _ => by
      unfold oldestFrom at h
      split at h
      · cases h
      · split at h <;> cases h

/-- `oldest` answers the index of a smallest key. -/
theorem oldest_eq_some {keys : List (Option Nat)} {j : Nat} (h : oldest keys = some j) :
    ∃ a, keys[j]? = some (some a) ∧ ∀ b, some b ∈ keys → a ≤ b := by
  unfold oldest at h
  cases hf : oldestFrom 0 keys with
  | none => rw [hf] at h; cases h
  | some p =>
    rw [hf] at h
    cases h
    obtain ⟨_, hj, hb⟩ := oldestFrom_spec keys 0 p.1 p.2 hf
    exact ⟨p.1, by simpa using hj, hb⟩

/-- `oldest` answers nothing exactly where there is no key. -/
theorem oldest_eq_none {keys : List (Option Nat)} : oldest keys = none ↔ ∀ b, some b ∉ keys := by
  refine ⟨fun h => oldestFrom_spec.oldestFrom_none keys 0 (by simpa [oldest] using h), fun h => ?_⟩
  cases ho : oldest keys with
  | none => rfl
  | some j =>
    obtain ⟨a, hj, _⟩ := oldest_eq_some ho
    exact absurd (List.mem_of_getElem? hj) (h a)

/-! ## Register alias table -/

/-- `reset` clears the mapping that holds the caller's tag and is otherwise nothing. -/
theorem ratReset_cases (r t : Nat) (s : State) :
    (s.ratAt r = some t ∧ ratReset r t s = s.setRat r none) ∨ (s.ratAt r ≠ some t ∧ ratReset r t s = s) := by
  unfold ratReset
  split
  · exact .inl ⟨‹_›, rfl⟩
  · exact .inr ⟨‹_›, rfl⟩

/-! ## Reorder buffer -/

theorem robInsert_eq_ok {x : Inst} {s t : State} {g : Nat} (h : robInsert x s = .ok g t) :
    (s.robAt s.robTail).valid = false ∧ g = s.robTail ∧
      t = { s.setRob s.robTail
              { valid := true, exec := false, ready := false, inst := { x with drTag := some s.robTail } } with
            robTail := nextSlot s s.robTail } := by
  unfold robInsert at h
  split at h
  · rename_i hs
    cases h
    exact ⟨by simpa [robHasSpace] using hs, rfl, rfl⟩
  · cases h

theorem robInsert_eq_raised {x : Inst} {s t : State} (h : robInsert x s = .raised t) :
    (s.robAt s.robTail).valid = true ∧ t = s.setFault .robInsertFull := by
  unfold robInsert at h
  split at h
  · cases h
  · rename_i hs
    cases h
    exact ⟨by simpa [robHasSpace] using hs, rfl⟩

theorem robMarkExecuting_eq_ok {g : Nat} {s t : State} (h : robMarkExecuting g s = .ok () t) :
    candidate s g = true ∧ t = s.setRob g { s.robAt g with exec := true } := by
  unfold robMarkExecuting at h
  split at h
  · cases h; exact ⟨‹_›, rfl⟩
  · cases h

theorem robMarkExecuting_eq_raised {g : Nat} {s t : State} (h : robMarkExecuting g s = .raised t) :
    candidate s g = false ∧ t = s.setFault .schedAlreadyExecuting := by
  unfold robMarkExecuting at h
  split at h
  · cases h
  · rename_i hc; cases h; exact ⟨by simpa using hc, rfl⟩

theorem robIsReady_eq_ok {g : Nat} {b : Bool} {s t : State} (h : robIsReady g s = .ok b t) :
    (s.robAt g).valid = true ∧ b = (s.robAt g).ready ∧ t = s := by
  unfold robIsReady at h
  split at h
  · cases h; exact ⟨‹_›, rfl, rfl⟩
  · cases h

theorem robIsReady_eq_raised {g : Nat} {s t : State} (h : robIsReady g s = .raised t) :
    (s.robAt g).valid = false ∧ t = s.setFault .staleTag := by
  unfold robIsReady at h
  split at h
  · cases h
  · rename_i hv; cases h; exact ⟨by simpa using hv, rfl⟩

theorem robMarkReady_eq_ok {g : Nat} {s t : State} (h : robMarkReady g s = .ok () t) :
    (s.robAt g).valid = true ∧ t = s.setRob g { s.robAt g with ready := true } := by
  unfold robMarkReady at h
  split at h
  · cases h; exact ⟨‹_›, rfl⟩
  · cases h

theorem robMarkReady_eq_raised {g : Nat} {s t : State} (h : robMarkReady g s = .raised t) :
    (s.robAt g).valid = false ∧ t = s.setFault .staleTag := by
  unfold robMarkReady at h
  split at h
  · cases h
  · rename_i hv; cases h; exact ⟨by simpa using hv, rfl⟩

/-- A broadcast changes no field of a slot but the ready flags of its sources. -/
theorem wakeSlot_fields (g : Nat) (x : RobSlot) :
    (wakeSlot g x).valid = x.valid ∧ (wakeSlot g x).exec = x.exec ∧ (wakeSlot g x).ready = x.ready ∧
      (wakeSlot g x).inst.seq = x.inst.seq ∧ (wakeSlot g x).inst.op = x.inst.op ∧
      (wakeSlot g x).inst.dest = x.inst.dest ∧ (wakeSlot g x).inst.src1 = x.inst.src1 ∧
      (wakeSlot g x).inst.src2 = x.inst.src2 ∧ (wakeSlot g x).inst.src1Tag = x.inst.src1Tag ∧
      (wakeSlot g x).inst.src2Tag = x.inst.src2Tag ∧ (wakeSlot g x).inst.drTag = x.inst.drTag ∧
      (wakeSlot g x).inst.wait = x.inst.wait := by
  unfold wakeSlot; split <;> simp

/-- A broadcast reads slot by slot: the empty slot outside the array stays what it is. -/
theorem robWakeup_robAt (g u : Nat) (s : State) : (robWakeup g s).robAt u = wakeSlot g (s.robAt u) := by
  unfold robWakeup State.robAt
  by_cases h : u < s.rob.length
  · simp [List.getD_eq_getElem?_getD, h]
  · simp [List.getD_eq_getElem?_getD, h, wakeSlot, RobSlot.empty]

theorem robRemoveHead_eq_ok {x : Inst} {s t : State} (h : robRemoveHead s = .ok x t) :
    (s.robAt s.robHead).valid = true ∧ (s.robAt s.robHead).ready = true ∧ x = (s.robAt s.robHead).inst ∧
      t = { s.setRob s.robHead { s.robAt s.robHead with valid := false, exec := false, ready := false } with
            robHead := nextSlot s s.robHead } := by
  unfold robRemoveHead at h
  split at h
  · rename_i hr
    cases h
    simp only [robHeadIsReady, Bool.and_eq_true] at hr
    exact ⟨hr.1, hr.2, rfl, rfl⟩
  · cases h

theorem robRemoveHead_eq_raised {s t : State} (h : robRemoveHead s = .raised t) :
    robHeadIsReady s = false ∧ t = s.setFault .robRemoveNotReady := by
  unfold robRemoveHead at h
  split at h
  · cases h
  · rename_i hr; cases h; exact ⟨by simpa using hr, rfl⟩

/-! ## Execution queue -/

/-- `insert` takes a free slot with only taken slots below it. -/
theorem exeqInsert_eq_ok {x : Inst} {s t : State} (h : exeqInsert x s = .ok () t) :
    ∃ q, q < s.exeq.length ∧ (s.exeqAt q).valid = false ∧ (∀ p < q, (s.exeqAt p).valid = true) ∧
      t = s.setExeq q { valid := true, inst := { x with wait := lat s.cfg x.op } } := by
  unfold exeqInsert at h
  split at h
  · cases h
  · rename_i q hq
    cases h
    obtain ⟨hl, hv, hb⟩ := List.findIdx?_eq_some_iff_getElem.mp hq
    refine ⟨q, hl, ?_, fun p hp => ?_, rfl⟩
    · simpa [State.exeqAt, List.getD_eq_getElem?_getD, hl] using hv
    · have hpl : p < s.exeq.length := Nat.lt_trans hp hl
      simpa [State.exeqAt, List.getD_eq_getElem?_getD, hpl] using hb p hp

/-- `insert` raises exactly where every slot is taken. -/
theorem exeqInsert_eq_raised {x : Inst} {s t : State} (h : exeqInsert x s = .raised t) :
    (∀ y ∈ s.exeq, y.valid = true) ∧ t = s.setFault .exeqOverflow := by
  unfold exeqInsert at h
  split at h
  · rename_i hn
    cases h
    refine ⟨fun y hy => ?_, rfl⟩
    simpa using List.findIdx?_eq_none_iff.mp hn y hy
  · cases h

/-! ## Schedule's choice -/

/-- A slot in program order is a valid slot of the ROB. -/
theorem mem_robOrder {s : State} {t : Nat} (h : t ∈ robOrder s) : t < s.cfg.robSize ∧ (s.robAt t).valid = true := by
  obtain ⟨hm, hv⟩ := List.mem_filter.mp h
  obtain ⟨k, _, rfl⟩ := List.mem_map.mp hm
  exact ⟨Nat.mod_lt _ s.cfg.one_le_robSize, hv⟩

/-- In-order selection over a list answers a member that is not executing and has its operands. -/
theorem firstInOrder_eq_some {s : State} {t : Nat} : ∀ {ts : List Nat}, firstInOrder s ts = some t →
    t ∈ ts ∧ (s.robAt t).exec = false ∧ operandsReady s t = true
  | [], h => nomatch h
  | u :: us, h => by
    unfold firstInOrder at h
    split at h
    · obtain ⟨hm, hr⟩ := firstInOrder_eq_some h
      exact ⟨List.mem_cons_of_mem _ hm, hr⟩
    · rename_i he
      split at h
      · rename_i ho
        cases h
        exact ⟨List.mem_cons_self, by simpa using he, ho⟩
      · cases h

/-- Either policy selects only a valid, non-executing slot whose operands are ready. -/
theorem select_eq_some {s : State} {t : Nat} (h : select s = some t) :
    t < s.cfg.robSize ∧ candidate s t = true ∧ operandsReady s t = true := by
  unfold select at h
  split at h
  · obtain ⟨hm, he, ho⟩ := firstInOrder_eq_some h
    obtain ⟨hl, hv⟩ := mem_robOrder hm
    exact ⟨hl, by simp [candidate, hv, he], ho⟩
  · have hp := List.find?_some h
    obtain ⟨hl, _⟩ := mem_robOrder (List.mem_of_find?_eq_some h)
    simp only [Bool.and_eq_true] at hp
    exact ⟨hl, hp.1, hp.2⟩

/-! ## Operands -/

/-- Resolving a source changes no state and answers by the three cases of the rule. -/
theorem resolveSource_eq_ok {src : Option Nat} {a : Option Nat × Bool} {s t : State}
    (h : resolveSource src s = .ok a t) :
    t = s ∧ ((src.bind s.ratAt = none ∧ a = (none, true)) ∨
      ∃ m, src.bind s.ratAt = some m ∧ (s.robAt m).valid = true ∧ a = (some m, (s.robAt m).ready)) := by
  unfold resolveSource at h
  split at h
  · cases h; exact ⟨rfl, .inl ⟨rfl, rfl⟩⟩
  · rename_i r
    split at h
    · rename_i hn
      cases h
      exact ⟨rfl, .inl ⟨hn, rfl⟩⟩
    · rename_i m hm
      obtain ⟨b, u, hb, hk⟩ := Res.bind_eq_ok.mp h
      obtain ⟨hv, rfl, rfl⟩ := robIsReady_eq_ok hb
      cases hk
      exact ⟨rfl, .inr ⟨m, hm, hv, rfl⟩⟩

/-- Resolving a source raises only on a mapping whose slot is empty. -/
theorem resolveSource_eq_raised {src : Option Nat} {s t : State} (h : resolveSource src s = .raised t) :
    ∃ m, src.bind s.ratAt = some m ∧ (s.robAt m).valid = false ∧ t = s.setFault .staleTag := by
  unfold resolveSource at h
  split at h
  · cases h
  · split at h
    · cases h
    · rename_i m hm
      rcases Res.bind_eq_raised.mp h with hb | ⟨b, u, _, hk⟩
      · obtain ⟨hv, rfl⟩ := robIsReady_eq_raised hb
        exact ⟨m, hm, hv, rfl⟩
      · cases hk

end Sys2Proof.Machine
end

