-- ==== Sys2Proof/Laws/PerInstr.lean ====
section
/-! SUPPORT. The family `EncodedFields`: where each part of an instruction stands in its canonical word. -/

namespace Sys2Proof.Laws.EncodedFields

/-- The op code of the class is in bits 7:0, and the three operand bytes stand above it (30_encoding.md R91, R106). -/
def Statement (i : Instr) : Prop :=
  opcField (encode i) = i.op.code ∧ rdByte (encode i) = opnd i.dest ∧ rs1Byte (encode i) = opnd i.src1 ∧
    rs2Byte (encode i) = opnd i.src2

/-- The four bytes of a word put together are its four bytes taken apart. -/
theorem bytes_of_append (a b c d : Byte) :
    opcField (d ++ (c ++ (b ++ a)) : BitVec 32) = a ∧ rdByte (d ++ (c ++ (b ++ a)) : BitVec 32) = b ∧
      rs1Byte (d ++ (c ++ (b ++ a)) : BitVec 32) = c ∧ rs2Byte (d ++ (c ++ (b ++ a)) : BitVec 32) = d := by
  simp only [opcField, rdByte, rs1Byte, rs2Byte]
  refine ⟨?_, ?_, ?_, ?_⟩ <;>
    (ext k hk; simp only [BitVec.getElem_extractLsb', BitVec.getLsbD_append]; interval_cases k <;> simp)

theorem alu (d s1 s2 : Operand) : Statement (.alu d s1 s2) := bytes_of_append _ _ _ _

theorem ld (d s1 s2 : Operand) : Statement (.ld d s1 s2) := bytes_of_append _ _ _ _

theorem st (d s1 s2 : Operand) : Statement (.st d s1 s2) := bytes_of_append _ _ _ _

theorem cbr (d s1 s2 : Operand) : Statement (.cbr d s1 s2) := bytes_of_append _ _ _ _

theorem other (d s1 s2 : Operand) : Statement (.other d s1 s2) := bytes_of_append _ _ _ _

end Sys2Proof.Laws.EncodedFields
end

