-- ==== Sys2Proof/Laws/Step.lean ====
section
/-! SUPPORT. What one lane of each stage, one tick and one step can do, said once. -/

namespace Sys2Proof.Machine

/-! ## One lane, one issue, one commit -/

/-- An execute-latch lane is empty and nothing happens, or its slot becomes ready, its tag is broadcast and it is
emptied. -/
theorem writebackLane_eq_ok {k : Nat} {s t : State} (h : writebackLane k s = .ok () t) :
    ((s.exAt k).valid = false ∧ t = s) ∨
      ∃ g, (s.exAt k).valid = true ∧ (s.exAt k).inst.drTag = some g ∧ (s.robAt g).valid = true ∧
        t = (robWakeup g (s.setRob g { s.robAt g with ready := true })).setEX k { s.exAt k with valid := false } := by
  unfold writebackLane at h
  split at h
  · rename_i hv
    split at h
    · cases h
    · rename_i g hg
      obtain ⟨_, u, hu, hk⟩ := Res.bind_eq_ok.mp h
      obtain ⟨hr, rfl⟩ := robMarkReady_eq_ok hu
      cases hk
      exact .inr ⟨g, hv, hg, hr, rfl⟩
  · rename_i hv
    cases h
    exact .inl ⟨by simpa using hv, rfl⟩

/-- A bypass lane stays as it is, or its single-cycle record moves to a free execute-latch lane. -/
theorem bypassLane_eq_ok {i : Nat} {s t : State} (h : bypassLane i s = .ok () t) :
    t = s ∨ ∃ k, (s.scAt i).valid = true ∧ lat s.cfg (s.scAt i).inst.op = 1 ∧ freeExLane s = some k ∧
      t = emptySC i (putEX k (s.scAt i).inst s) := by
  unfold bypassLane at h
  split at h
  · rename_i hv
    simp only [Bool.and_eq_true, beq_iff_eq] at hv
    split at h
    · cases h; exact .inl rfl
    · rename_i k hk
      cases h
      exact .inr ⟨k, hv.1, hv.2, hk, rfl⟩
  · cases h; exact .inl rfl

/-- A bypass lane never raises. -/
theorem bypassLane_ne_raised {i : Nat} {s t : State} : bypassLane i s ≠ .raised t := by
  unfold bypassLane
  split
  · split <;> exact fun h => nomatch h
  · exact fun h => nomatch h

/-- An enqueue lane stays as it is, or its multi-cycle record moves to the lowest free EXEQ slot. -/
theorem enqueueLane_eq_ok {i : Nat} {s t : State} (h : enqueueLane i s = .ok () t) :
    t = s ∨ ∃ q, (s.scAt i).valid = true ∧ 1 < lat s.cfg (s.scAt i).inst.op ∧ q < s.exeq.length ∧
      (s.exeqAt q).valid = false ∧ (∀ p < q, (s.exeqAt p).valid = true) ∧
      t = emptySC i (s.setExeq q
        { valid := true, inst := { (s.scAt i).inst with wait := lat s.cfg (s.scAt i).inst.op } }) := by
  unfold enqueueLane at h
  split at h
  · rename_i hv
    simp only [Bool.and_eq_true, decide_eq_true_eq] at hv
    obtain ⟨_, u, hu, hk⟩ := Res.bind_eq_ok.mp h
    obtain ⟨q, hq, hf, hb, rfl⟩ := exeqInsert_eq_ok hu
    cases hk
    exact .inr ⟨q, hv.1, hv.2, hq, hf, hb, rfl⟩
  · cases h; exact .inl rfl

/-- An enqueue lane raises only on a full EXEQ. -/
theorem enqueueLane_eq_raised {i : Nat} {s t : State} (h : enqueueLane i s = .raised t) :
    (s.scAt i).valid = true ∧ 1 < lat s.cfg (s.scAt i).inst.op ∧ (∀ y ∈ s.exeq, y.valid = true) ∧
      t = s.setFault .exeqOverflow := by
  unfold enqueueLane at h
  split at h
  · rename_i hv
    simp only [Bool.and_eq_true, decide_eq_true_eq] at hv
    rcases Res.bind_eq_raised.mp h with hu | ⟨_, _, _, hk⟩
    · exact ⟨hv.1, hv.2, exeqInsert_eq_raised hu⟩
    · cases hk
  · cases h

/-- A schedule lane stays as it is, or takes a copy of the selected slot, which is marked executing. -/
theorem scheduleLane_eq_ok {i : Nat} {s t : State} (h : scheduleLane i s = .ok () t) :
    t = s ∨ ∃ g, (s.scAt i).valid = false ∧ select s = some g ∧
      t = (s.setRob g { s.robAt g with exec := true }).setSC i
        { s.scAt i with valid := true, inst := ((s.setRob g { s.robAt g with exec := true }).robAt g).inst } := by
  unfold scheduleLane at h
  split at h
  · cases h; exact .inl rfl
  · rename_i hv
    split at h
    · cases h; exact .inl rfl
    · rename_i g hg
      obtain ⟨_, u, hu, hk⟩ := Res.bind_eq_ok.mp h
      obtain ⟨_, rfl⟩ := robMarkExecuting_eq_ok hu
      cases hk
      exact .inr ⟨g, by simpa using hv, hg, rfl⟩

/-- A schedule lane never raises: what is selected is a candidate. -/
theorem scheduleLane_ne_raised {i : Nat} {s t : State} : scheduleLane i s ≠ .raised t := by
  intro h
  unfold scheduleLane at h
  split at h
  · cases h
  · split at h
    · cases h
    · rename_i g hg
      rcases Res.bind_eq_raised.mp h with hu | ⟨_, _, _, hk⟩
      · have := (select_eq_some hg).2.1
        rw [(robMarkExecuting_eq_raised hu).1] at this
        cases this
      · cases hk

/-- One issue: both sources resolved, the tail slot filled, the destination renamed, the lane emptied, in this order. -/
theorem issueOne_eq_ok {j : Nat} {s t : State} (h : issueOne j s = .ok () t) :
    ∃ (a b : Option Nat × Bool) (g : Nat) (u : State),
      resolveSource (s.idAt j).inst.src1 s = .ok a s ∧ resolveSource (s.idAt j).inst.src2 s = .ok b s ∧
      robInsert { (s.idAt j).inst with src1Tag := a.1, src1Ready := a.2, src2Tag := b.1, src2Ready := b.2 } s =
        .ok g u ∧
      t = (renameDest (s.idAt j).inst.dest g u).setID j
        { (renameDest (s.idAt j).inst.dest g u).idAt j with valid := false } := by
  unfold issueOne resolveSources at h
  obtain ⟨x, s1, hx, hk⟩ := Res.bind_eq_ok.mp h
  obtain ⟨a, s2, ha, hx⟩ := Res.bind_eq_ok.mp hx
  obtain ⟨rfl, _⟩ := resolveSource_eq_ok ha
  obtain ⟨b, s3, hb, hx⟩ := Res.bind_eq_ok.mp hx
  obtain ⟨rfl, _⟩ := resolveSource_eq_ok hb
  cases hx
  obtain ⟨g, u, hg, hk⟩ := Res.bind_eq_ok.mp hk
  cases hk
  exact ⟨a, b, g, u, ha, hb, hg, rfl⟩

/-- The RAT clean-up of a committed record writes the RAT and nothing else. -/
theorem clearDest_cases (x : Inst) (s : State) :
    clearDest x s = s ∨ ∃ d g, x.dest = some d ∧ x.drTag = some g ∧ s.ratAt d = some g ∧
      clearDest x s = s.setRat d none := by
  unfold clearDest
  split
  · rename_i d g hd hg
    rcases ratReset_cases d g s with ⟨he, hr⟩ | ⟨_, hr⟩
    · exact .inr ⟨d, g, hd, hg, he, hr⟩
    · exact .inl hr
  · exact .inl rfl

/-! ## The tick and the step -/

/-- A tick of a machine that is not running is nothing; of a running one it is the six stages and Fetch, or the six
stages up to where a fault was raised. -/
theorem tick_cases (item : TraceItem) (s : State) :
    (running s = false ∧ tick item s = s) ∨
      (running s = true ∧ ∃ u, beforeFetch s = .ok () u ∧ tick item s = fetch item u) ∨
      (running s = true ∧ ∃ u, beforeFetch s = .raised u ∧ tick item s = u) := by
  unfold tick
  cases hr : running s with
  | false => exact .inl ⟨rfl, by simp⟩
  | true =>
    cases hb : beforeFetch s with
    | ok _ u => exact .inr (.inl ⟨rfl, u, rfl, by simp⟩)
    | raised u => exact .inr (.inr ⟨rfl, u, rfl, by simp⟩)

/-- The six stages before Fetch, one after the other. -/
theorem beforeFetch_eq_ok {s t : State} (h : beforeFetch s = .ok () t) :
    ∃ s1 s2 s3 s4 s5, commit { s with cycleCount := s.cycleCount + 1 } = .ok () s1 ∧ writeback s1 = .ok () s2 ∧
      execute s2 = .ok () s3 ∧ schedule s3 = .ok () s4 ∧ issue s4 = .ok () s5 ∧ t = decode s5 := by
  unfold beforeFetch at h
  obtain ⟨_, s1, h1, h⟩ := Res.bind_eq_ok.mp h
  obtain ⟨_, s2, h2, h⟩ := Res.bind_eq_ok.mp h
  obtain ⟨_, s3, h3, h⟩ := Res.bind_eq_ok.mp h
  obtain ⟨_, s4, h4, h⟩ := Res.bind_eq_ok.mp h
  obtain ⟨_, s5, h5, h⟩ := Res.bind_eq_ok.mp h
  cases h
  exact ⟨s1, s2, s3, s4, s5, h1, h2, h3, h4, h5, rfl⟩

/-- A clock answers a next state exactly on a machine state, and then the tick's. -/
theorem clock_eq_next {item : TraceItem} {s t : State} :
    clock item s = .next t ↔ wellShaped s = true ∧ t = tick item s := by
  unfold clock
  split
  · rename_i hw
    exact ⟨fun h => by cases h; exact ⟨hw, rfl⟩, fun h => by rw [h.2]⟩
  · rename_i hw
    exact ⟨fun h => (nomatch h), fun h => absurd h.1 hw⟩

/-- Every instruction's meaning is the clock that offers it. -/
theorem exec_eq_clock (i : Instr) (s : State) : exec i s = clock (offered s.cfg i) s := by cases i <;> rfl

/-- A decoded instruction is well formed, so it is offered as a record. -/
theorem offered_of_decodeRecord {cfg : Config} {w : Word} {i : Instr} (h : decodeRecord cfg.numArchRegs w = .ok i) :
    offered cfg i = .record i := by
  unfold decodeRecord at h
  split at h
  · split at h
    · rename_i hw
      cases h
      simp [offered, hw]
    · cases h
  · cases h

/-- A step is the clock with the stream's next item at the port. -/
theorem step_eq_clock (s : State) : step s = clock (nextItem s) s := by
  unfold step
  cases hn : nextItem s with
  | malformed => rfl
  | endOfStream => rfl
  | record i =>
    have hi : offered s.cfg i = .record i := by
      unfold nextItem at hn
      split at hn
      · cases hn
      · split at hn
        · rename_i hd
          cases hn
          exact offered_of_decodeRecord hd
        · cases hn
    show exec i s = _
    rw [exec_eq_clock, hi]

end Sys2Proof.Machine
end

