-- ==== Sys2Proof/Tests/Slice0.lean ====
section
/-! SUPPORT. The model's own tests, expected values from 95_test_vectors.md (named by their ids) or worked by hand from
the rule named, and for every statement of Obligations.lean with hypotheses a state that meets them. -/

namespace Sys2Proof.Tests

open Sys2Proof Sys2Proof.Machine

set_option Elab.async false

/-! ## Well-formedness: an ill-formed operand in each place is refused (30_encoding.md R100) -/

theorem test_wellFormed_accepts : (Instr.alu (some 31#7) (some 0#7) none).wellFormed 32 = true := by decide

theorem test_wellFormed_refuses_destination : (Instr.alu (some 32#7) none none).wellFormed 32 = false := by decide

theorem test_wellFormed_refuses_first_source : (Instr.ld none (some 32#7) none).wellFormed 32 = false := by decide

theorem test_wellFormed_refuses_second_source : (Instr.st none none (some 127#7)).wellFormed 32 = false := by decide

/-! ## Decoding: words written out from 30_encoding.md R91 to R93, used flag and register number of source 2, source 1 and
the destination, then the op code -/

theorem test_decode_alu :
    decodeRecord 32 (0b1#1 ++ 0b0000010#7 ++ 0b1#1 ++ 0b0000001#7 ++ 0b1#1 ++ 0b0000101#7 ++ 0b00000000#8) =
      .ok (.alu (some 5#7) (some 1#7) (some 2#7)) := by decide

theorem test_decode_ld :
    decodeRecord 32 (0b0#1 ++ 0b0000000#7 ++ 0b1#1 ++ 0b0000001#7 ++ 0b1#1 ++ 0b0000011#7 ++ 0b00000001#8) =
      .ok (.ld (some 3#7) (some 1#7) none) := by decide

theorem test_decode_st :
    decodeRecord 32 (0b1#1 ++ 0b0000001#7 ++ 0b1#1 ++ 0b0000011#7 ++ 0b0#1 ++ 0b0000000#7 ++ 0b00000010#8) =
      .ok (.st none (some 3#7) (some 1#7)) := by decide

theorem test_decode_cbr :
    decodeRecord 32 (0b0#1 ++ 0b0000000#7 ++ 0b1#1 ++ 0b0000100#7 ++ 0b0#1 ++ 0b0000000#7 ++ 0b00000011#8) =
      .ok (.cbr none (some 4#7) none) := by decide

theorem test_decode_other :
    decodeRecord 32 (0b0#1 ++ 0b0000000#7 ++ 0b0#1 ++ 0b0000000#7 ++ 0b0#1 ++ 0b1111111#7 ++ 0b00000100#8) =
      .ok (.other none none none) := by decide

/-- E9: a reserved op code is refused by name. -/
theorem test_decode_reserved : decodeRecord 32 0x00000005#32 = .error (.reservedOpcode 0x05#8) := by decide

/-- E11 and E12. -/
theorem test_decode_register_range :
    decodeRecord 32 0x0000A000#32 = .error (.registerOutOfRange (.alu (some 32#7) none none)) ∧
      decodeRecord 64 0x0000A000#32 = .ok (.alu (some 32#7) none none) := by decide

/-- E1's bytes, and E15: a record and a 2-byte partial record. -/
theorem test_byte_stream :
    bytesOfWord 0x82818500#32 = [0x00#8, 0x85#8, 0x81#8, 0x82#8] ∧
      wordsOfBytes [0x00#8, 0x85#8, 0x81#8, 0x82#8, 0x01#8, 0x83#8] = [0x82818500#32] ∧
      decodeBytes 32 [0x01#8, 0x83#8] = .error (.partialRecord 2) := by decide

/-- E1 to E6. -/
theorem test_encode :
    encode (.alu (some 5#7) (some 1#7) (some 2#7)) = 0x82818500#32 ∧
      encode (.ld (some 3#7) (some 1#7) none) = 0x00818301#32 ∧
      encode (.st none (some 3#7) (some 1#7)) = 0x81830002#32 ∧
      encode (.cbr none (some 4#7) none) = 0x00840003#32 ∧
      encode (.other none none none) = 0x00000004#32 ∧
      encode (.alu (some 127#7) (some 0#7) (some 0#7)) = 0x8080FF00#32 := by decide

/-- The five rows of spec/opcode_table.json with every other bit 0 and every other bit 1. -/
theorem test_decodeTableWord :
    decodeTableWord 32 0x00000000 = some (.alu none none none) ∧ decodeTableWord 32 0xFFFFFF01 =
      some (.ld (some 127#7) (some 127#7) (some 127#7)) ∧ decodeTableWord 32 0x00000002 = some (.st none none none) ∧
      decodeTableWord 32 0x00000003 = some (.cbr none none none) ∧
      decodeTableWord 32 0x00000004 = some (.other none none none) ∧ decodeTableWord 32 0x00000005 = none := by decide

/-- E7: the internal record of a fetched instruction. -/
theorem test_fetchedInst :
    fetchedInst 9 (.alu (some 5#7) (some 1#7) (some 2#7)) =
      { seq := 9, op := .alu, dest := some 5, src1 := some 1, src2 := some 2, src1Tag := none, src2Tag := none,
        drTag := none, src1Ready := false, src2Ready := false, wait := 0 } := by decide

/-! ## Small states -/

/-- A configuration of four registers and a ROB of four; `width`, EXEQ_SIZE, WB_WIDTH, the policy and LOAD_LATENCY are
the test's. -/
def config (width exeqSize wbWidth : Nat) (policy : SchedPolicy) (latency : Nat)
    (h : 1 ≤ width ∧ width ≤ wbWidth ∧ 1 ≤ latency) : Config where
  pipeWidth := width
  robSize := 4
  numArchRegs := 4
  exeqSize := exeqSize
  wbWidth := wbWidth
  schedPolicy := policy
  loadLatency := latency
  one_le_pipeWidth := h.1
  pipeWidth_le_wbWidth := h.2.1
  one_le_loadLatency := h.2.2

/-- One lane, room for every load of LOAD_LATENCY 3: a `Sized` configuration. -/
def narrow (policy : SchedPolicy) : Config := config 1 3 2 policy 3 (by decide)

/-- A record as Fetch makes it. -/
def fresh (q : Nat) (op : OpClass) (dest src1 src2 : Option Nat) : Inst :=
  { Inst.blank with seq := q, op := op, dest := dest, src1 := src1, src2 := src2 }

/-- The record of slot `t`, both sources ready. -/
def issued (q : Nat) (op : OpClass) (dest : Option Nat) (t : Nat) : Inst :=
  { fresh q op dest none none with drTag := some t, src1Ready := true, src2Ready := true }

/-- A lane that holds a record. -/
def lane (x : Inst) : Lane := { valid := true, stall := false, inst := x }

/-- A ROB slot that holds a record. -/
def slot (exec ready : Bool) (x : Inst) : RobSlot := { valid := true, exec := exec, ready := ready, inst := x }

/-- An EXEQ slot that holds a record with `w` cycles left. -/
def queued (x : Inst) (w : Nat) : ExeqSlot := { valid := true, inst := { x with wait := w } }

/-- A reader of register 2 that waits on tag `g`. -/
def waiting (q t g : Nat) : Inst :=
  { issued q .alu (some 1) t with src1 := some 2, src1Tag := some g, src1Ready := false }

/-- A stream of `n` words `OTHER -, -, -`. -/
def others (n : Nat) : List Word := List.replicate n 0x00000004#32

/-- Mid-run: seq 3 is ready at the head (slot 2), the load seq 4 has its last cycle in the EXEQ, seq 5 waits on it, seq 6
is decoded, seq 7 fetched; r1 is mapped to its younger writer. -/
def busy (policy : SchedPolicy) : State :=
  { State.resetWith (narrow policy) (others 9) with
    rat := [none, some 0, some 3, none]
    rob := [slot false false (waiting 5 0 3), .empty, slot true true (issued 3 .alu (some 1) 2),
      slot true false (issued 4 .ld (some 2) 3)]
    robHead := 2
    robTail := 1
    exeq := [queued (issued 4 .ld (some 2) 3) 1, .empty, .empty]
    latchID := [lane (fresh 6 .st none (some 1) (some 3))]
    latchFE := [lane (fresh 7 .cbr none (some 0) none)]
    lastSeq := 7
    retiredCount := 2
    cycleCount := 10
    tracePos := 7 }

/-- `busy` after the end of the stream has been met. -/
def draining : State := { busy .ooo with eosSeen := true, haltSeq := 7 }

/-- Nothing moves on: the ROB is full, its head is a load in the EXEQ, seq 2 has just been scheduled, and every lane of ID
and FE is taken. -/
def full : State :=
  { State.resetWith (config 1 1 2 .ooo 3 (by decide)) (others 9) with
    rat := [none, some 3, some 0, none]
    rob := [slot true false (issued 1 .ld (some 2) 0), slot true false (issued 2 .st none 1),
      slot false false (waiting 3 2 0), slot false false (waiting 4 3 0)]
    exeq := [queued (issued 1 .ld (some 2) 0) 2]
    latchSC := [lane (issued 2 .st none 1)]
    latchID := [lane (fresh 5 .other none none none)]
    latchFE := [lane (fresh 6 .other none none none)]
    lastSeq := 6
    cycleCount := 8
    tracePos := 6 }

/-- `full` with one execute lane: the load has finished and seq 2 takes the lane. -/
def crowded : State :=
  { full with
    cfg := config 1 1 1 .ooo 3 (by decide)
    exeq := [queued (issued 1 .ld (some 2) 0) 0]
    latchEX := [.empty] }

/-- Two loads, the first in the EXEQ, the second in the schedule latch, and one EXEQ slot free or none. -/
def twoLoads (exeqSize : Nat) : State :=
  { State.resetWith (config 1 exeqSize 2 .inOrder 3 (by decide)) (others 9) with
    rat := [none, some 0, some 1, none]
    rob := [slot true false (issued 1 .ld (some 1) 0), slot true false (issued 2 .ld (some 2) 1), .empty, .empty]
    robTail := 2
    exeq := queued (issued 1 .ld (some 1) 0) 2 :: List.replicate (exeqSize - 1) .empty
    latchSC := [lane (issued 2 .ld (some 2) 1)]
    latchID := [lane (fresh 3 .other none none none)]
    latchFE := [lane (fresh 4 .other none none none)]
    lastSeq := 4
    cycleCount := 5
    tracePos := 4 }

/-- One instruction has run and the machine has halted. -/
def done : State :=
  { State.resetWith (narrow .ooo) (others 1) with
    robHead := 1, robTail := 1, lastSeq := 1, haltSeq := 1, eosSeen := true, halted := true, retiredCount := 1
    cycleCount := 7, tracePos := 1 }

/-- An instruction about to be written back, and its dependent. -/
def producing : State :=
  { State.resetWith (narrow .ooo) (others 2) with
    rat := [none, some 1, some 0, none]
    rob := [slot true false (issued 1 .alu (some 2) 0), slot false false (waiting 2 1 0), .empty, .empty]
    robTail := 2
    latchEX := [lane (issued 1 .alu (some 2) 0), .empty]
    lastSeq := 2, haltSeq := 2, eosSeen := true
    cycleCount := 5, tracePos := 2 }

/-- Two lanes, two instructions ready to be scheduled, the stream ended. -/
def pair : State :=
  { State.resetWith (config 2 3 2 .inOrder 3 (by decide)) (others 2) with
    rob := [slot false false (issued 1 .st none 0), slot false false (issued 2 .cbr none 1), .empty, .empty]
    robTail := 2
    lastSeq := 2, haltSeq := 2, eosSeen := true
    cycleCount := 4, tracePos := 2 }

/-- `busy` with the EXEQ's slots and the execute latch's lanes the other way round. -/
def turned : State :=
  { busy .ooo with exeq := (busy .ooo).exeq.reverse, latchEX := (busy .ooo).latchEX.reverse }

/-- Reset with one record in the stream. -/
def oneRecord (w : Word) : State := State.resetWith (narrow .ooo) [w]

/-- Where a step goes; itself where it stops. -/
def after (s : State) : State :=
  match step s with
  | .next t => t
  | _ => s

/-- Where an instruction at the trace port leads; itself where it stops. -/
def execAfter (i : Instr) (s : State) : State :=
  match exec i s with
  | .next t => t
  | _ => s

/-- An operation went on. -/
def wentOn {α : Type} : Res α → Bool
  | .ok _ _ => true
  | .raised _ => false

theorem eq_ok_of_wentOn : ∀ {x : Res Unit}, wentOn x = true → x = .ok () x.state
  | .ok () _, _ => rfl

theorem eq_raised_of_not_wentOn : ∀ {x : Res Unit}, wentOn x = false → x = .raised x.state
  | .raised _, _ => rfl

theorem exec_eq_next {i : Instr} {s : State} (h : wellShaped s = true) : exec i s = .next (execAfter i s) := by
  simp [execAfter, exec_eq_clock, clock, h]

theorem step_eq_next {s : State} (h : wellShaped s = true) : step s = .next (after s) := by
  simp [after, step_eq_clock, clock, h]

/-! ## The invariant holds in them -/

set_option synthInstance.maxSize 2048

theorem busy_inv (policy : SchedPolicy) : Inv (busy policy) := by cases policy <;> constructor <;> decide +kernel

theorem draining_inv : Inv draining := by constructor <;> decide +kernel

theorem full_inv : Inv full := by constructor <;> decide +kernel

theorem crowded_inv : Inv crowded := by constructor <;> decide +kernel

theorem twoLoads_inv_overflow : Inv (twoLoads 1) := by constructor <;> decide +kernel

theorem twoLoads_inv_room : Inv (twoLoads 2) := by constructor <;> decide +kernel

theorem done_inv : Inv done := by constructor <;> decide +kernel

theorem producing_inv : Inv producing := by constructor <;> decide +kernel

theorem pair_inv : Inv pair := by constructor <;> decide +kernel

theorem oneRecord_inv : Inv (oneRecord 0x00818301#32) := by constructor <;> decide +kernel

/-! ## One step on small states -/

/-- R170: an ALU record at the port of an idle machine stands in the fetch latch with sequence number 1. -/
theorem test_alu_is_fetched :
    (execAfter (.alu (some 3#7) (some 1#7) (some 2#7)) (oneRecord 0x82818300#32)).latchFE =
      [lane (fresh 1 .alu (some 3) (some 1) (some 2))] := by decide +kernel

/-- R101: an ALU record with register 4 of 4 is consumed and ends the input. -/
theorem test_alu_out_of_range :
    (execAfter (.alu (some 4#7) none none) (busy .ooo)).eosSeen = true ∧
      (execAfter (.alu (some 4#7) none none) (busy .ooo)).haltSeq = 7 ∧
      (execAfter (.alu (some 4#7) none none) (busy .ooo)).tracePos = 8 := by decide +kernel

/-- R170: the read position moves past an LD record. -/
theorem test_ld_is_consumed :
    (execAfter (.ld (some 3#7) (some 1#7) none) (oneRecord 0x00818301#32)).tracePos = 1 ∧
      (execAfter (.ld (some 3#7) (some 1#7) none) (oneRecord 0x00818301#32)).lastSeq = 1 := by decide +kernel

/-- 46_execute_writeback.md R220: a scheduled load enters the EXEQ and is aged in the same tick. -/
theorem test_ld_enters_the_exeq :
    (after (twoLoads 2)).exeq.map (fun x => (x.valid, x.inst.seq, x.inst.wait)) = [(true, 1, 1), (true, 2, 2)] := by
  decide +kernel

/-- V6: with the EXEQ full the tick faults and the load stays in the schedule latch. -/
theorem test_ld_overflows :
    (after (twoLoads 1)).fault = some .exeqOverflow ∧ (after (twoLoads 1)).latchSC = (twoLoads 1).latchSC := by
  decide +kernel

/-- R173: with no place for it an ST record is not read. -/
theorem test_st_waits :
    (execAfter (.st none none none) full).tracePos = 6 ∧ (execAfter (.st none none none) full).latchFE = full.latchFE := by
  decide +kernel

/-- 46_execute_writeback.md R220: a scheduled ST passes the EXEQ by. -/
theorem test_st_bypasses :
    ((after full).latchEX.map (fun l => (l.valid, l.inst.seq)))[0]? = some (true, 2) := by decide +kernel

/-- R173: a CBR record follows the instructions ahead of it into the fetch latch. -/
theorem test_cbr_is_fetched :
    (execAfter (.cbr none (some 0#7) none) (busy .ooo)).latchFE = [lane (fresh 8 .cbr none (some 0) none)] ∧
      latchSeqs (execAfter (.cbr none (some 0#7) none) (busy .ooo)).latchID = [7] := by decide +kernel

/-- R171: after the end of the stream an OTHER record is not read. -/
theorem test_other_after_end :
    latchSeqs (execAfter (.other none none none) draining).latchFE = [] ∧
      (execAfter (.other none none none) draining).tracePos = 7 := by decide +kernel

/-- 46_execute_writeback.md R227: the dependent of what is written back is scheduled in the same tick. -/
theorem test_wakeup_then_schedule :
    latchSeqs (after producing).latchSC = [2] ∧ ((after producing).robAt 0).ready = true := by decide +kernel

/-- 47_commit.md R237: the commit of the older writer of r1 leaves the mapping to the younger. -/
theorem test_commit_keeps_younger_mapping :
    (after (busy .ooo)).ratAt 1 = some 0 ∧ (after (busy .ooo)).retiredCount = 3 ∧ (after (busy .ooo)).robHead = 3 := by
  decide +kernel

/-- V7: the first step from reset meets the end of the stream and halts. -/
theorem test_reset_halts : (after State.reset).halted = true ∧ (after State.reset).cycleCount = 1 := by decide +kernel

/-- A word placed by `withFetchWord` is the first instruction after reset. -/
theorem test_withFetchWord : (after (State.reset.withFetchWord 32 0x82818500)).latchFE =
    [lane (fresh 1 .alu (some 5) (some 1) (some 2))] := by decide +kernel

/-- T4, B9, B14 and Q3: an operation's other outcome. -/
theorem test_operations_refuse :
    (ratReset 1 2 (busy .ooo)).ratAt 1 = some 0 ∧ wentOn (robIsReady 1 (busy .ooo)) = false ∧
      wentOn (robRemoveHead full) = false ∧ wentOn (exeqInsert Inst.blank (twoLoads 1)) = false := by decide +kernel

/-- 60_exceptions.md R301: the numbers of the fault codes. -/
theorem test_fault_numbers :
    [FaultCode.exeqOverflow, .robInsertFull, .robRemoveNotReady, .schedAlreadyExecuting, .staleTag].map
      FaultCode.number = [1, 2, 3, 4, 5] := by decide

/-- B16: program order across the wrap. -/
theorem test_robOrder : robOrder (busy .ooo) = [2, 3, 0] := by decide +kernel

/-! ## For every statement with hypotheses, a state and operands that meet them -/

/-- An operand in range, an operand out of range of a smaller block, a canonical word and one that is not. -/
theorem witness_RecordEncodingRoundTrips :
    (Instr.ld (some 127#7) none (some 0#7)).wellFormed 128 = true ∧ (Instr.other none none none).wellFormed 0 = true ∧
      decodeRecord 32 0x82818500#32 = .ok (.alu (some 5#7) (some 1#7) (some 2#7)) ∧ canonical 0x82818500#32 = true ∧
      decodeRecord 32 0x00007F04#32 = .ok (.other none none none) ∧ canonical 0x00007F04#32 = false := by decide

theorem witness_MalformedWordsAreTheReservedAndOutOfRange :
    malformed 32 0x00000005#32 = true ∧ malformed 32 0x0000A000#32 = true ∧ malformed 32 0x00A00001#32 = true ∧
      malformed 32 0xA0000002#32 = true ∧ malformed 32 0x9F9F9F04#32 = false ∧ malformed 128 0xFFFFFF04#32 = false ∧
      decodeRecord 3 0x82818000#32 = .ok (.alu (some 0#7) (some 1#7) (some 2#7)) := by decide

theorem witness_UnusedRegisterBitsAreIgnored :
    opcField 0x00007F04#32 = opcField 0x00000004#32 ∧
      (∀ f ∈ [rdByte, rs1Byte, rs2Byte], (f 0x00007F04#32).getLsbD 7 = (f 0x00000004#32).getLsbD 7 ∧
        ((f 0x00007F04#32).getLsbD 7 = true → f 0x00007F04#32 = f 0x00000004#32)) ∧
      decodeWord 0x7F7F7F00#32 = .ok (.alu none none none) ∧ (0x7F7F7F00#32).getLsbD 15 = false ∧
      (0x7F7F7F00#32).getLsbD 23 = false ∧ (0x7F7F7F00#32).getLsbD 31 = false ∧
      (Instr.alu none none none).dest = none ∧ (Instr.alu none none none).src1 = none ∧
      (Instr.alu none none none).src2 = none := by
  refine ⟨by decide, fun f hf => ?_, by decide, by decide, by decide, by decide, rfl, rfl, rfl⟩
  simp only [List.mem_cons, List.not_mem_nil, or_false] at hf
  rcases hf with rfl | rfl | rfl <;> decide

theorem witness_ByteStreamHoldsWholeRecords :
    [0x01#8, 0x83#8, 0x00#8].length < 4 ∧ ([] : List Byte).length < 4 ∧
      decodeRecord 32 0x00818301#32 = .ok (.ld (some 3#7) (some 1#7) none) := by decide

theorem witness_DerivedWidthsAndLatency :
    (narrow .ooo).tagWidth = 2 ∧ lat (narrow .ooo) .ld = 3 ∧ Operand.inRange 4 (some 3#7) = true ∧
      Operand.inRange 4 (some 4#7) = false := by decide

theorem witness_ResetLeavesEverythingEmpty :
    (∃ s, s = State.resetWith (narrow .ooo) (others 1)) ∧ 3 < (narrow .ooo).numArchRegs ∧ 3 < (narrow .ooo).robSize ∧
      2 < (narrow .ooo).exeqSize := ⟨⟨_, rfl⟩, by decide⟩

/-- A record, a malformed word and the end of the stream at the read position; an instruction to be placed. -/
theorem witness_StepRunsTheDecodedInstruction :
    (busy .ooo).trace[(busy .ooo).tracePos]? = some 0x00000004#32 ∧
      decodeRecord (busy .ooo).cfg.numArchRegs 0x00000004#32 = .ok (.other none none none) ∧
      (oneRecord 0x00000005#32).trace[(oneRecord 0x00000005#32).tracePos]? = some 0x00000005#32 ∧
      malformed (oneRecord 0x00000005#32).cfg.numArchRegs 0x00000005#32 = true ∧ done.trace.length ≤ done.tracePos ∧
      (Instr.cbr none (some 3#7) none).wellFormed full.cfg.numArchRegs = true := by decide +kernel

/-- The five stages before Decode go on one after the other; a fault is raised in the third; a halted and a faulted
state. -/
theorem witness_TickEvaluatesStagesInOrder :
    ((busy .ooo).halted = false ∧ (busy .ooo).fault = none ∧ ∃ s1 s2 s3 s4 s5,
      commit { busy .ooo with cycleCount := (busy .ooo).cycleCount + 1 } = .ok () s1 ∧ writeback s1 = .ok () s2 ∧
        execute s2 = .ok () s3 ∧ schedule s3 = .ok () s4 ∧ issue s4 = .ok () s5) ∧
      ((twoLoads 1).halted = false ∧ (twoLoads 1).fault = none ∧ ∃ s1 s2 u,
        commit { twoLoads 1 with cycleCount := (twoLoads 1).cycleCount + 1 } = .ok () s1 ∧ writeback s1 = .ok () s2 ∧
          execute s2 = .raised u) ∧
      done.halted = true ∧ (done.setFault .staleTag).fault ≠ none := by
  refine ⟨⟨rfl, rfl, _, _, _, _, _, eq_ok_of_wentOn ?_, eq_ok_of_wentOn ?_, eq_ok_of_wentOn ?_, eq_ok_of_wentOn ?_,
    eq_ok_of_wentOn ?_⟩, ⟨rfl, rfl, _, _, _, eq_ok_of_wentOn ?_, eq_ok_of_wentOn ?_, eq_raised_of_not_wentOn ?_⟩,
    rfl, by decide⟩ <;> decide +kernel

theorem witness_EndedMachineStandsStill :
    wellShaped done = true ∧ ended done = true ∧ wellShaped (full.setFault .exeqOverflow) = true ∧
      ended (full.setFault .exeqOverflow) = true := by decide +kernel

theorem witness_RatOperationsTouchOneRegister : 0 < (busy .ooo).rat.length ∧ 3 < (busy .ooo).rat.length := by decide

/-- A ROB with a free tail and a full one, the tail at the last slot and at the first. -/
theorem witness_RobInsertFillsTheTailSlot :
    (busy .ooo).rob.length = (busy .ooo).cfg.robSize ∧ (busy .ooo).robTail < (busy .ooo).cfg.robSize ∧
      robHasSpace (busy .ooo) = true ∧ full.rob.length = full.cfg.robSize ∧ full.robTail < full.cfg.robSize ∧
      robHasSpace full = false := by decide +kernel

/-- Slots on either side of every test: not executing, executing, free, ready. -/
theorem witness_RobFlagOperations :
    (busy .ooo).rob.length = (busy .ooo).cfg.robSize ∧ (busy .ooo).robHead < (busy .ooo).cfg.robSize ∧
      3 < (busy .ooo).cfg.robSize ∧ candidate (busy .ooo) 0 = true ∧ candidate (busy .ooo) 3 = false ∧
      ((busy .ooo).robAt 1).valid = false ∧ ((busy .ooo).robAt 0).valid = true ∧ robHeadIsReady (busy .ooo) = true ∧
      robHeadIsReady full = false := by decide +kernel

theorem witness_WakeupReachesEveryWaitingSource :
    (∃ s', s' = robWakeup 3 (busy .ooo)) ∧ ((busy .ooo).robAt 1).valid = false ∧
      ((busy .ooo).robAt 0).valid = true ∧ ((busy .ooo).robAt 0).inst.src1Tag = some 3 :=
  ⟨⟨_, rfl⟩, by decide⟩

/-- A free slot above a taken one, a full queue, an empty one of size 0. -/
theorem witness_ExeqInsertAndCycle :
    (1 < (twoLoads 2).exeq.length ∧ ((twoLoads 2).exeqAt 1).valid = false ∧
        ∀ p < 1, ((twoLoads 2).exeqAt p).valid = true) ∧
      (∀ q < (twoLoads 1).exeq.length, ((twoLoads 1).exeqAt q).valid = true) ∧
      ((twoLoads 1).exeqAt 0).valid = true ∧ ((busy .ooo).exeqAt 1).valid = false := by decide +kernel

/-- Something finished with another entry beside it, and nothing finished. -/
theorem witness_ExeqRemovesOldestFinished :
    (exeqRemoveFinished (exeqCycle (busy .ooo))).isSome = true ∧ exeqHasFinished (exeqCycle (busy .ooo)) = true ∧
      exeqHasFinished (busy .ooo) = false := by decide +kernel

/-- A ready head, a head that is not ready, the last commit of a run. -/
theorem witness_CommitRetiresTheReadyHead :
    Inv (busy .ooo) ∧ robHeadIsReady (busy .ooo) = true ∧ Inv full ∧ robHeadIsReady full = false ∧
      robCount full = full.cfg.robSize :=
  ⟨busy_inv _, by decide +kernel, full_inv, by decide +kernel, by decide +kernel⟩

theorem witness_WritebackMarksAndWakes :
    producing.latchEX.length = producing.cfg.wbWidth ∧
      (∀ l ∈ producing.latchEX, l.valid = true →
        ∃ t, l.inst.drTag = some t ∧ (producing.robAt t).valid = true) ∧
      ∃ l ∈ producing.latchEX, l.valid = true := by
  refine ⟨rfl, fun l hl hv => ⟨0, ?_, by decide⟩, by decide⟩
  revert l
  decide

theorem witness_WritebackLaneOrderIsImmaterial :
    producing.latchEX.length = producing.cfg.wbWidth ∧ producing.latchEX.Perm producing.latchEX.reverse ∧
      ∃ s1, writeback producing = .ok () s1 :=
  ⟨rfl, (List.reverse_perm _).symm, _, eq_ok_of_wentOn (by decide +kernel)⟩

/-- Demand that just fits, a single-cycle record, and demand one above what is free. -/
theorem witness_ExecutePathDependsOnLatencyAlone :
    (wellShaped (twoLoads 2) = true ∧ (∀ l ∈ (twoLoads 2).latchEX, l.valid = false) ∧
        exeqDemand (twoLoads 2) = 1 ∧ exeqFree (twoLoads 2) = 1) ∧
      (wellShaped full = true ∧ (∀ l ∈ full.latchEX, l.valid = false) ∧ exeqDemand full = 0 ∧ exeqFree full = 0 ∧
        ∃ l ∈ full.latchSC, l.valid = true ∧ lat full.cfg l.inst.op = 1) ∧
      wellShaped (twoLoads 1) = true ∧ (∀ l ∈ (twoLoads 1).latchEX, l.valid = false) ∧
        exeqFree (twoLoads 1) < exeqDemand (twoLoads 1) := by decide +kernel

/-- One cycle left, two cycles left, and none left with the lane taken. -/
theorem witness_CountdownLeavesTheExeqAtZero :
    (wellShaped (busy .ooo) = true ∧ (∀ l ∈ (busy .ooo).latchEX, l.valid = false) ∧
        (∃ t, execute (busy .ooo) = .ok () t) ∧ ∃ x ∈ (busy .ooo).exeq, x.valid = true ∧ x.inst.wait = 1) ∧
      wellShaped full = true ∧ (∀ l ∈ full.latchEX, l.valid = false) ∧ (∃ t, execute full = .ok () t) ∧
        (∃ x ∈ full.exeq, x.valid = true ∧ x.inst.wait = 2) ∧
      wellShaped crowded = true ∧ (∀ l ∈ crowded.latchEX, l.valid = false) ∧ (∃ t, execute crowded = .ok () t) ∧
        (∀ e ∈ (execute crowded).state.latchEX, e.valid = true ∧ e.inst.seq = 2) ∧
        ∃ x ∈ crowded.exeq, x.valid = true ∧ x.inst.wait = 0 :=
  ⟨⟨by decide +kernel, by decide, ⟨_, eq_ok_of_wentOn (by decide +kernel)⟩, by decide⟩, by decide +kernel, by decide,
    ⟨_, eq_ok_of_wentOn (by decide +kernel)⟩, by decide, by decide +kernel, by decide,
    ⟨_, eq_ok_of_wentOn (by decide +kernel)⟩, by decide +kernel, by decide⟩

/-- `pair` under a policy, its oldest instruction blocked or not. -/
def pairWith (policy : SchedPolicy) (ready : Bool) : State :=
  { pair with
    cfg := config 2 3 2 policy 3 (by decide)
    rob := [slot false false { issued 1 .st none 0 with src1Ready := ready }, slot false false (issued 2 .cbr none 1),
      .empty, .empty] }

/-- A full lane; an empty first lane with something selected, which fills both lanes, and with nothing selected. -/
theorem witness_ScheduleTakesOnlyReadySlots :
    (wellShaped full = true ∧ (full.scAt 0).valid = true) ∧
      (wellShaped pair = true ∧ (pair.scAt 0).valid = false ∧ select pair = some 0 ∧
        (schedule pair).state.latchSC.map (fun l => l.inst.seq) = [1, 2]) ∧
      wellShaped (pairWith .inOrder false) = true ∧ select (pairWith .inOrder false) = none := by decide +kernel

/-- The dependent of `producing`, awake, is selected under either policy; with the oldest instruction blocked only the
out-of-order policy takes the younger; and a slot is taken while a candidate is left. -/
theorem witness_SelectionPrefersProgramOrder :
    (Inv (after producing) ∧ selectOoo (robWakeup 0 producing) = some 1 ∧
        selectInOrder (robWakeup 0 producing) = some 1 ∧ selectOoo producing = none) ∧
      (select (pairWith .ooo false) = some 1 ∧ select (pairWith .inOrder false) = none) ∧
      ∀ policy, let s : State := { pairWith policy true with latchSC := [lane (issued 9 .st none 3), .empty] }
        wellShaped s = true ∧ WindowOk s ∧ (∃ s', schedule s = .ok () s') ∧ (s.robAt 0).exec = false ∧
          ((schedule s).state.robAt 0).exec = true ∧ candidate (schedule s).state 1 = true ∧
          operandsReady (schedule s).state 1 = true := by
  refine ⟨⟨?_, ?_, ?_, ?_⟩, ⟨?_, ?_⟩, fun policy => ?_⟩
  case refine_1 => constructor <;> decide +kernel
  case refine_7 =>
    cases policy <;>
      exact ⟨by decide +kernel, by decide +kernel, ⟨_, eq_ok_of_wentOn (by decide +kernel)⟩, rfl, by decide +kernel,
        by decide +kernel, by decide +kernel⟩
  all_goals decide +kernel

/-- Three valid slots across the wrap, and an empty ROB. -/
theorem witness_ProgramOrderIsAgeOrder : Inv (busy .ooo) ∧ robCount (busy .ooo) = 3 ∧ Inv done ∧ robCount done = 0 :=
  ⟨busy_inv _, by decide, done_inv, by decide⟩

/-- A ROB with space and a full one. -/
theorem witness_OccupancyIsTailMinusHead :
    Inv (busy .ooo) ∧ robHasSpace (busy .ooo) = true ∧ Inv full ∧ robCount full = full.cfg.robSize :=
  ⟨busy_inv _, by decide, full_inv, by decide⟩

/-- A record that reads its own destination, with every register mapped to a slot in use. -/
theorem witness_IssueResolvesThenRenames :
    let s : State := { busy .ooo with latchID := [lane (fresh 6 .alu (some 2) (some 2) (some 0))] }
    (s.idAt 0).inst = fresh 6 .alu (some 2) (some 2) (some 0) ∧ robHasSpace s = true ∧ s.rob.length = s.cfg.robSize ∧
      s.robTail < s.cfg.robSize ∧ (∀ d, (fresh 6 .alu (some 2) (some 2) (some 0)).dest = some d → d < s.rat.length) ∧
      ∀ r m, s.ratAt r = some m → (s.robAt m).valid = true := by
  refine ⟨rfl, by decide +kernel, by decide, by decide, fun d hd => ?_, fun r m h => ?_⟩
  · cases hd; decide
  · match r with
    | 0 => cases h
    | 1 => cases h; decide
    | 2 => cases h; decide
    | 3 => cases h
    | r + 4 => cases h

/-- Two decoded instructions, the second reading in both its sources what the first writes. -/
theorem witness_DependentPairIsLinked :
    let s : State := { State.resetWith (config 2 3 2 .ooo 3 (by decide)) [] with
      latchID := [lane (fresh 1 .ld (some 3) none none), lane (fresh 2 .alu (some 3) (some 3) (some 3))] }
    s.rob.length = s.cfg.robSize ∧ s.robTail < s.cfg.robSize ∧ 3 < s.rat.length ∧ (s.idAt 0).inst.dest = some 3 ∧
      ∃ s1 s2, issueOne 0 s = .ok () s1 ∧ issueOne 1 s1 = .ok () s2 ∧ (s1.idAt 1).inst.src1 = some 3 ∧
        (s1.idAt 1).inst.src2 = some 3 :=
  ⟨rfl, by decide, by decide, rfl, _, _, eq_ok_of_wentOn (by decide +kernel), eq_ok_of_wentOn (by decide +kernel),
    by decide +kernel, by decide +kernel⟩

/-- A decoded instruction and room for it, and none. -/
theorem witness_IssueFillsTheRobInOrder :
    Inv (busy .ooo) ∧ laneCount (busy .ooo).latchID = 1 ∧ robHasSpace (busy .ooo) = true ∧ Inv full ∧
      robHasSpace full = false :=
  ⟨busy_inv _, by decide, by decide +kernel, full_inv, by decide +kernel⟩

/-- G1 and a full decode lane: the empty lane takes the older of two. -/
theorem witness_DecodeMovesTheOldestFetched :
    let s : State := { State.resetWith (config 2 3 2 .ooo 3 (by decide)) [] with
      latchFE := [lane (fresh 4 .alu none none none), lane (fresh 3 .alu none none none)]
      latchID := [lane (fresh 2 .alu none none none), .empty] }
    s.latchFE.length = s.cfg.pipeWidth ∧ s.latchID.length = s.cfg.pipeWidth ∧ (∀ l ∈ s.latchID, l.stall = false) ∧
      (s.idAt 0).valid = true ∧ (s.idAt 1).valid = false ∧ ((decode s).idAt 1).valid = true ∧
      latchSeqs (decode s).latchID = [2, 3] ∧ latchSeqs (decode s).latchFE = [4] := by decide +kernel

/-- Two lanes, two different records in the stream, nothing fetched yet. -/
def twoRecords : State := State.resetWith (config 2 3 2 .ooo 3 (by decide)) [0x00818301#32, 0x00008200#32, 0x00000004#32]

theorem twoRecords_inv : Inv twoRecords := by constructor <;> decide +kernel

/-- R170, R75: two lanes take two records in ascending lanes. -/
theorem test_two_lanes_take_two_records :
    (after twoRecords).latchFE = [lane (fresh 1 .ld (some 3) (some 1) none), lane (fresh 2 .alu (some 2) none none)] := by
  decide +kernel

/-- A machine in mid-run and one whose EXEQ has just the one slot the tick needs; a step and an instruction that fetch into
two lanes. -/
theorem witness_RecordIsAdmitted :
    (Inv (busy .ooo) ∧ (busy .ooo).halted = false ∧ (busy .ooo).eosSeen = false ∧
        (Instr.st none (some 3#7) (some 0#7)).wellFormed (busy .ooo).cfg.numArchRegs = true ∧
        exeqDemand (busy .ooo) ≤ exeqFree (busy .ooo) ∧ fetchRoom (busy .ooo) = true) ∧
      Inv (twoLoads 2) ∧ (twoLoads 2).halted = false ∧ (twoLoads 2).eosSeen = false ∧
        exeqDemand (twoLoads 2) = exeqFree (twoLoads 2) ∧ fetchRoom (twoLoads 2) = true ∧
      Inv twoRecords ∧ step twoRecords = .next (after twoRecords) ∧ twoRecords.lastSeq = 0 ∧
        (after twoRecords).lastSeq = 2 ∧ (execAfter (.st none none none) twoRecords).lastSeq = 2 ∧
        ((after twoRecords).feAt 0).valid = true ∧ ((after twoRecords).feAt 1).valid = true :=
  ⟨⟨busy_inv _, rfl, rfl, by decide, by decide +kernel, by decide +kernel⟩, twoLoads_inv_room, rfl, rfl,
    by decide +kernel, by decide +kernel, twoRecords_inv, step_eq_next twoRecords_inv.shape, rfl, by decide +kernel,
    by decide +kernel, by decide +kernel, by decide +kernel⟩

/-- No place, and the stream ended. -/
theorem witness_RecordWaitsWithoutRoom :
    Inv full ∧ fetchRoom full = false ∧ Inv draining ∧ draining.eosSeen = true :=
  ⟨full_inv, by decide +kernel, draining_inv, rfl⟩

/-- The first register the block has not, with instructions fetched and with none. -/
theorem witness_OutOfRangeRecordEndsTheInput :
    (Inv (busy .ooo) ∧ (busy .ooo).halted = false ∧ (busy .ooo).eosSeen = false ∧
        (Instr.cbr none (some 4#7) none).wellFormed (busy .ooo).cfg.numArchRegs = false ∧
        exeqDemand (busy .ooo) ≤ exeqFree (busy .ooo) ∧ fetchRoom (busy .ooo) = true) ∧
      Inv (oneRecord 0x00818301#32) ∧ (oneRecord 0x00818301#32).halted = false ∧
        exeqDemand (oneRecord 0x00818301#32) ≤ exeqFree (oneRecord 0x00818301#32) ∧
        fetchRoom (oneRecord 0x00818301#32) = true ∧ (oneRecord 0x00818301#32).lastSeq = 0 :=
  ⟨⟨busy_inv _, rfl, rfl, by decide, by decide +kernel, by decide +kernel⟩, oneRecord_inv, rfl, by decide +kernel,
    by decide +kernel, rfl⟩

/-- A tick whose six stages go on with a full fetch latch, and one that faults in them. -/
theorem witness_RecordTouchesOnlyWhatFetchWrites :
    (wellShaped full = true ∧ running full = true ∧ (∃ u, beforeFetch full = .ok () u) ∧
        (beforeFetch full).state.latchFE = full.latchFE) ∧
      wellShaped (twoLoads 1) = true ∧ running (twoLoads 1) = true ∧ ∃ u, beforeFetch (twoLoads 1) = .raised u :=
  ⟨⟨by decide +kernel, by decide, ⟨_, eq_ok_of_wentOn (by decide +kernel)⟩, by decide +kernel⟩, by decide +kernel,
    by decide, ⟨_, eq_raised_of_not_wentOn (by decide +kernel)⟩⟩

/-- A next state from `exec` and from `step`. -/
theorem witness_ConfigTraceAndStallAreNeverWritten :
    exec (.ld (some 1#7) none none) (busy .ooo) = .next (execAfter (.ld (some 1#7) none none) (busy .ooo)) ∧
      step (busy .ooo) = .next (after (busy .ooo)) :=
  ⟨exec_eq_next (by decide +kernel), step_eq_next (by decide +kernel)⟩

/-- A step that goes on and a step that faults. -/
theorem witness_CountersAdvanceWithinTheWidth :
    (wellShaped (busy .ooo) = true ∧ running (busy .ooo) = true ∧ step (busy .ooo) = .next (after (busy .ooo))) ∧
      wellShaped (twoLoads 1) = true ∧ running (twoLoads 1) = true ∧
        step (twoLoads 1) = .next (after (twoLoads 1)) :=
  ⟨⟨by decide +kernel, by decide, step_eq_next (by decide +kernel)⟩, by decide +kernel, by decide,
    step_eq_next (by decide +kernel)⟩

theorem witness_EndOfStreamIsSticky :
    draining.eosSeen = true ∧ exec (.other none none none) draining = .next (execAfter (.other none none none) draining) ∧
      step draining = .next (after draining) :=
  ⟨rfl, exec_eq_next (by decide +kernel), step_eq_next (by decide +kernel)⟩

/-- Demand above what is free, and demand that just fits. -/
theorem witness_OnlyExeqOverflowFaults :
    Inv (twoLoads 1) ∧ (twoLoads 1).halted = false ∧ exeqFree (twoLoads 1) < exeqDemand (twoLoads 1) ∧
      Inv (twoLoads 2) ∧ (twoLoads 2).halted = false ∧ exeqFree (twoLoads 2) = exeqDemand (twoLoads 2) :=
  ⟨twoLoads_inv_overflow, rfl, by decide +kernel, twoLoads_inv_room, rfl, by decide +kernel⟩

theorem witness_OverflowEndsTheTickInExecute :
    Inv (twoLoads 1) ∧ (twoLoads 1).halted = false ∧ exeqFree (twoLoads 1) < exeqDemand (twoLoads 1) ∧
      ((twoLoads 1).exeqAt 0).valid = true :=
  ⟨twoLoads_inv_overflow, rfl, by decide +kernel, by decide⟩

theorem witness_EveryStepKeepsTheShape : wellShaped (busy .ooo) = true ∧ wellShaped (twoLoads 1) = true := by
  decide +kernel

/-- The premises of the eight statements on the invariant's clauses: a running machine, a tick without a fault. -/
theorem witness_EveryStepKeepsTheInvariant :
    Inv (busy .ooo) ∧ step (busy .ooo) = .next (after (busy .ooo)) ∧ (after (busy .ooo)).fault = none :=
  ⟨busy_inv _, step_eq_next (busy_inv _).shape, by decide +kernel⟩

/-- The window after the step holds two instructions and more, and is not empty. -/
theorem witness_EveryStepKeepsTheWindow :
    Inv (busy .ooo) ∧ step (busy .ooo) = .next (after (busy .ooo)) ∧ (after (busy .ooo)).fault = none ∧
      robCount (after (busy .ooo)) = 3 :=
  ⟨busy_inv _, step_eq_next (busy_inv _).shape, by decide +kernel, by decide +kernel⟩

/-- After the step there are mapped and unmapped registers. -/
theorem witness_EveryStepKeepsRatSoundness :
    Inv (busy .ooo) ∧ step (busy .ooo) = .next (after (busy .ooo)) ∧ (after (busy .ooo)).fault = none ∧
      (after (busy .ooo)).ratAt 1 = some 0 ∧ (after (busy .ooo)).ratAt 0 = none :=
  ⟨busy_inv _, step_eq_next (busy_inv _).shape, by decide +kernel, by decide +kernel, by decide +kernel⟩

/-- After the step a source is still pending. -/
theorem witness_EveryStepKeepsPendingTagsLive :
    Inv (busy .ooo) ∧ step (busy .ooo) = .next (after (busy .ooo)) ∧ (after (busy .ooo)).fault = none ∧
      ((after (busy .ooo)).robAt 0).valid = true ∧ ((after (busy .ooo)).robAt 0).inst.src1Ready = false :=
  ⟨busy_inv _, step_eq_next (busy_inv _).shape, by decide +kernel, by decide +kernel, by decide +kernel⟩

/-- After the step a slot is ready and executing. -/
theorem witness_EveryStepKeepsFlagImplications :
    Inv producing ∧ step producing = .next (after producing) ∧ (after producing).fault = none ∧
      ∃ x ∈ (after producing).rob, x.valid = true ∧ x.ready = true ∧ x.exec = true :=
  ⟨producing_inv, step_eq_next (producing_inv).shape, by decide +kernel, by decide +kernel⟩

/-- After the step two copies travel. -/
theorem witness_EveryStepKeepsTravellingCopies :
    Inv full ∧ step full = .next (after full) ∧ (after full).fault = none ∧ (travellers (after full)).length = 2 :=
  ⟨full_inv, step_eq_next (full_inv).shape, by decide +kernel, by decide +kernel⟩

theorem witness_EveryStepKeepsInOrderScheduling :
    Inv (busy .inOrder) ∧ InOrderPrefix (busy .inOrder) ∧ (busy .inOrder).cfg.schedPolicy = .inOrder ∧
      step (busy .inOrder) = .next (after (busy .inOrder)) ∧ (after (busy .inOrder)).fault = none ∧
      (Inv pair ∧ InOrderPrefix pair ∧ pair.cfg.schedPolicy = .inOrder ∧ step pair = .next (after pair) ∧
        (after pair).fault = none ∧ ((after pair).scAt 0).valid = true ∧ ((after pair).scAt 1).valid = true) :=
  ⟨busy_inv _, by decide +kernel, rfl, step_eq_next (busy_inv _).shape, by decide +kernel, pair_inv, by decide +kernel,
    rfl, step_eq_next pair_inv.shape, by decide +kernel, by decide +kernel, by decide +kernel⟩

/-- The dependent of `producing` is scheduled in the tick its producer is written back. -/
theorem witness_TrueDependenciesAreHonoured :
    Inv producing ∧ step producing = .next (after producing) ∧ (after producing).fault = none ∧
      1 < producing.cfg.robSize ∧ (producing.robAt 1).valid = true ∧ (producing.robAt 1).inst.src1Ready = false ∧
      (producing.robAt 1).inst.src1Tag = some 0 ∧ ((after producing).robAt 1).exec = true :=
  ⟨producing_inv, step_eq_next producing_inv.shape, by decide +kernel, by decide, rfl, rfl, rfl, by decide +kernel⟩

theorem witness_SizedConfigurationNeverFaults :
    Inv (busy .ooo) ∧ Sized (busy .ooo).cfg ∧ Spread (busy .ooo) := ⟨busy_inv _, by decide, by decide +kernel⟩

/-- An instruction in each of the eleven states. -/
theorem witness_EveryInstructionIsInOnePhase :
    (Inv (busy .ooo) ∧ inPhase (busy .ooo) 8 .unfetched = true ∧ inPhase (busy .ooo) 7 .fetched = true ∧
        inPhase (busy .ooo) 6 .decoded = true ∧ inPhase (busy .ooo) 5 .waiting = true ∧
        inPhase (busy .ooo) 4 .executing = true ∧ inPhase (busy .ooo) 3 .completed = true ∧
        inPhase (busy .ooo) 2 .committed = true ∧ inPhase (busy .ooo) 1 .committed = true) ∧
      Inv full ∧ inPhase full 2 .scheduled = true ∧ Inv producing ∧ inPhase producing 1 .executed = true ∧
      Inv crowded ∧ inPhase crowded 1 .finished = true ∧ Inv (after (twoLoads 2)) ∧
      inPhase (after (twoLoads 2)) 3 .ready = true := by
  refine ⟨⟨busy_inv _, ?_, ?_, ?_, ?_, ?_, ?_, ?_, ?_⟩, full_inv, ?_, producing_inv, ?_, crowded_inv, ?_, ?_, ?_⟩
  case refine_12 => constructor <;> decide +kernel
  all_goals decide +kernel

/-- Every instruction of `busy` moves or stays along the table. -/
theorem witness_EveryInstructionMovesForward :
    Inv (busy .ooo) ∧ step (busy .ooo) = .next (after (busy .ooo)) ∧ (after (busy .ooo)).fault = none ∧
      (inPhase (busy .ooo) 4 .executing = true ∧ inPhase (after (busy .ooo)) 4 .executed = true) ∧
      (inPhase (busy .ooo) 3 .completed = true ∧ inPhase (after (busy .ooo)) 3 .committed = true) ∧
      (inPhase (busy .ooo) 5 .waiting = true ∧ inPhase (after (busy .ooo)) 5 .waiting = true) ∧
      inPhase (busy .ooo) 6 .decoded = true ∧ inPhase (after (busy .ooo)) 6 .waiting = true := by
  refine ⟨busy_inv _, step_eq_next (busy_inv _).shape, ?_, ⟨?_, ?_⟩, ⟨?_, ?_⟩, ⟨?_, ?_⟩, ?_, ?_⟩ <;> decide +kernel

/-- A load in a block with an EXEQ, and a single-cycle record in one without. -/
theorem witness_RecordAloneRunsThroughTheSevenStages :
    (Idle (oneRecord 0x00818301#32) ∧
        (Instr.ld (some 3#7) (some 1#7) none).wellFormed (oneRecord 0x00818301#32).cfg.numArchRegs = true ∧
        (oneRecord 0x00818301#32).tracePos + 1 = (oneRecord 0x00818301#32).trace.length ∧
        1 ≤ (oneRecord 0x00818301#32).cfg.exeqSize) ∧
      let s := State.resetWith (config 1 0 1 .inOrder 5 (by decide)) [0x82818300#32]
      Idle s ∧ (Instr.alu (some 3#7) (some 1#7) (some 2#7)).wellFormed s.cfg.numArchRegs = true ∧
        s.tracePos + 1 = s.trace.length ∧ lat s.cfg (Instr.alu (some 3#7) (some 1#7) (some 2#7)).op = 1 := by
  decide +kernel

/-- Two states that differ in the order of the EXEQ's slots, one of them in use. -/
theorem witness_LanePlacementIsImmaterial :
    Inv (busy .ooo) ∧ (busy .ooo).latchFE.Perm turned.latchFE ∧ (busy .ooo).latchID.Perm turned.latchID ∧
      (busy .ooo).latchSC.Perm turned.latchSC ∧ (busy .ooo).latchEX.Perm turned.latchEX ∧
      (busy .ooo).exeq.Perm turned.exeq ∧
      turned = { busy .ooo with latchFE := turned.latchFE, latchID := turned.latchID, latchSC := turned.latchSC,
                                latchEX := turned.latchEX, exeq := turned.exeq } ∧
      turned ≠ busy .ooo ∧ step (busy .ooo) = .next (after (busy .ooo)) ∧ (after (busy .ooo)).fault = none :=
  ⟨busy_inv _, .refl _, .refl _, .refl _, (List.reverse_perm _).symm, (List.reverse_perm _).symm, rfl, by decide +kernel,
    step_eq_next (busy_inv _).shape, by decide +kernel⟩

/-- A ROB with an instruction at its head, and one whose head is still to be scheduled. -/
theorem witness_RobHeadIsNeverBlocked :
    Inv (busy .ooo) ∧ robCount (busy .ooo) ≠ 0 ∧
      let s : State := { State.resetWith (narrow .inOrder) (others 2) with
        rob := [slot false false (issued 1 .alu none 0), .empty, .empty, .empty]
        robTail := 1, lastSeq := 1, haltSeq := 1, eosSeen := true, tracePos := 2 }
      Inv s ∧ robCount s ≠ 0 ∧ candidate s s.robHead = true := by
  refine ⟨busy_inv _, by decide, ?_, by decide, by decide⟩
  constructor <;> decide +kernel

/-- A run under a large enough configuration, and one that will fault. -/
theorem witness_EveryRunEnds :
    Inv (busy .ooo) ∧ Sized (busy .ooo).cfg ∧ Spread (busy .ooo) ∧ Inv (twoLoads 1) :=
  ⟨busy_inv _, by decide, by decide +kernel, twoLoads_inv_overflow⟩

theorem witness_HaltedMachineIsEmpty : Inv done ∧ done.halted = true := ⟨done_inv, rfl⟩

/-- Two states that differ in the record of a free slot. -/
theorem witness_UnreadRecordsDoNotMatter :
    (busy .ooo).visible = ((busy .ooo).setRob 1 { RobSlot.empty with inst := waiting 5 0 3 }).visible ∧
      busy .ooo ≠ (busy .ooo).setRob 1 { RobSlot.empty with inst := waiting 5 0 3 } ∧
      step (busy .ooo) = .next (after (busy .ooo)) :=
  ⟨by decide +kernel, by decide +kernel, step_eq_next (busy_inv _).shape⟩

/-- `twoLoads 2` with its stream ending at the read position, or continuing with `w`. -/
def atEnd (tail : List Word) : State := { twoLoads 2 with trace := others 4 ++ tail }

theorem atEnd_end_inv : Inv (atEnd []) := by constructor <;> decide +kernel

theorem atEnd_reserved_inv : Inv (atEnd [0x00000005#32]) := by constructor <;> decide +kernel

/-- A reserved op code, a register out of range as the first word ever read, and the end of the stream, each with what the
clause on the change of `eos_seen` assumes; and a malformed word met in the second lane of a tick. -/
theorem witness_InputEndsAtMalformedWordOrEnd :
    (Inv (atEnd [0x00000005#32]) ∧ (atEnd [0x00000005#32]).halted = false ∧ (atEnd [0x00000005#32]).eosSeen = false ∧
        exeqDemand (atEnd [0x00000005#32]) ≤ exeqFree (atEnd [0x00000005#32]) ∧
        fetchRoom (atEnd [0x00000005#32]) = true ∧
        (atEnd [0x00000005#32]).trace[(atEnd [0x00000005#32]).tracePos]? = some 0x00000005#32 ∧
        malformed (atEnd [0x00000005#32]).cfg.numArchRegs 0x00000005#32 = true ∧
        step (atEnd [0x00000005#32]) = .next (after (atEnd [0x00000005#32])) ∧
        (after (atEnd [0x00000005#32])).eosSeen = true) ∧
      (Inv (oneRecord 0x00008400#32) ∧ exeqDemand (oneRecord 0x00008400#32) ≤ exeqFree (oneRecord 0x00008400#32) ∧
        fetchRoom (oneRecord 0x00008400#32) = true ∧
        (oneRecord 0x00008400#32).trace[(oneRecord 0x00008400#32).tracePos]? = some 0x00008400#32 ∧
        malformed (oneRecord 0x00008400#32).cfg.numArchRegs 0x00008400#32 = true ∧
        (oneRecord 0x00008400#32).lastSeq = 0) ∧
      (Inv (atEnd []) ∧ (atEnd []).halted = false ∧ (atEnd []).eosSeen = false ∧
        exeqDemand (atEnd []) ≤ exeqFree (atEnd []) ∧ fetchRoom (atEnd []) = true ∧
        (atEnd []).trace.length ≤ (atEnd []).tracePos ∧ step (atEnd []) = .next (after (atEnd [])) ∧
        (after (atEnd [])).eosSeen = true) ∧
      let s := State.resetWith (config 2 3 2 .ooo 3 (by decide)) [0x00000004#32, 0x000000FF#32]
      Inv s ∧ step s = .next (after s) ∧ s.eosSeen = false ∧ (after s).eosSeen = true ∧ (after s).lastSeq = 1 := by
  refine ⟨⟨atEnd_reserved_inv, rfl, rfl, ?_, ?_, ?_, ?_, step_eq_next atEnd_reserved_inv.shape, ?_⟩,
    ⟨?_, ?_, ?_, ?_, ?_, rfl⟩, ⟨atEnd_end_inv, rfl, rfl, ?_, ?_, ?_, step_eq_next atEnd_end_inv.shape, ?_⟩,
    ?_, step_eq_next ?_, rfl, ?_, ?_⟩
  case refine_6 => constructor <;> decide +kernel
  case refine_15 => constructor <;> decide +kernel
  all_goals decide +kernel

/-- A load where there is an EXEQ, and a single-cycle record where there is none. -/
theorem witness_OneRecordTraceTakesSevenStages :
    ((Instr.ld (some 3#7) (some 1#7) none).wellFormed (narrow .ooo).numArchRegs = true ∧ 1 ≤ (narrow .ooo).exeqSize ∧
        (aloneTimeline (lat (narrow .ooo) .ld))[8]? = some .committed) ∧
      (Instr.st none (some 3#7) (some 0#7)).wellFormed (config 1 0 1 .inOrder 5 (by decide)).numArchRegs = true ∧
        lat (config 1 0 1 .inOrder 5 (by decide)) .st = 1 := by decide

end Sys2Proof.Tests
end

section
/-! PROOFS. The derived quantities of 00_scope.md R7: the width of a tag, the legal register numbers, the latency. -/

namespace Sys2Proof.Machine

/-- The ceiling and the floor of the binary logarithm, one apart when the floor is taken of the predecessor: both sides
are at most `k` exactly when `n ≤ 2 ^ k`. -/
theorem clog_two_eq_log2_pred_succ {n : Nat} (hn : 2 ≤ n) : Nat.clog 2 n = Nat.log2 (n - 1) + 1 := by
  refine eq_of_forall_ge_iff fun k => ?_
  calc Nat.clog 2 n ≤ k
      ↔ n ≤ 2 ^ k := Nat.clog_le_iff_le_pow Nat.one_lt_two
    _ ↔ n - 1 < 2 ^ k := by omega
    _ ↔ Nat.log2 (n - 1) < k := (Nat.log2_lt (by omega)).symm
    _ ↔ Nat.log2 (n - 1) + 1 ≤ k := Nat.lt_iff_add_one_le

/-- A ROB of one or two slots has one bit of tag; in a larger one the logarithm is above the 1 of R7's `max`. -/
theorem tagWidth_eq_max_clog (c : Config) : c.tagWidth = max 1 (Nat.clog 2 c.robSize) := by
  unfold Config.tagWidth
  split
  case isTrue hsmall =>
    have hclog : Nat.clog 2 c.robSize ≤ 1 := Nat.clog_le_of_le_pow hsmall
    exact (max_eq_left hclog).symm
  case isFalse hlarge =>
    rw [clog_two_eq_log2_pred_succ (by omega)]
    exact (max_eq_right (Nat.le_add_left 1 _)).symm

@[simp] theorem inRange_some_iff (n : Nat) (r : RegNum) : Operand.inRange n (some r) = true ↔ r.toNat < n :=
  decide_eq_true_iff

theorem lat_ld (c : Config) : lat c .ld = c.loadLatency := rfl

theorem lat_of_ne_ld (c : Config) {op : OpClass} (hop : op ≠ .ld) : lat c op = 1 := by
  cases op with
  | ld => exact absurd rfl hop
  | alu | st | cbr | other => rfl

theorem lat_eq_ite (c : Config) (op : OpClass) : lat c op = if op = .ld then c.loadLatency else 1 := by
  split
  case isTrue hld => rw [hld, lat_ld]
  case isFalse hop => exact lat_of_ne_ld c hop

/-- Settles O7: the tag width by the two logarithms, the legal registers and the latency by the model's equations. -/
theorem derivedWidthsAndLatency : Obligations.DerivedWidthsAndLatency :=
  ⟨tagWidth_eq_max_clog, rfl, inRange_some_iff, lat_eq_ite⟩

end Sys2Proof.Machine
end

section
/-! PROOFS. Reset (10_state.md R61), read through the accessors: reset fills each array with the entry that also stands
for a reading outside it, so what an accessor answers after reset does not depend on the index. -/

namespace Sys2Proof.Machine

section
variable (cfg : Config) (trace : List Word)

@[simp] theorem State.ratAt_resetWith (r : Nat) : (State.resetWith cfg trace).ratAt r = none :=
  List.getElem?_getD_replicate_default_eq ..

@[simp] theorem State.robAt_resetWith (t : Nat) : (State.resetWith cfg trace).robAt t = .empty :=
  List.getElem?_getD_replicate_default_eq ..

@[simp] theorem State.exeqAt_resetWith (q : Nat) : (State.resetWith cfg trace).exeqAt q = .empty :=
  List.getElem?_getD_replicate_default_eq ..

theorem State.eq_empty_of_mem_latches_resetWith {l : Lane}
    (hl : l ∈ (State.resetWith cfg trace).latchFE ++ (State.resetWith cfg trace).latchID ++
      (State.resetWith cfg trace).latchSC ++ (State.resetWith cfg trace).latchEX) : l = .empty := by
  simp only [List.mem_append] at hl
  obtain ((hFE | hID) | hSC) | hEX := hl
  · exact List.eq_of_mem_replicate hFE
  · exact List.eq_of_mem_replicate hID
  · exact List.eq_of_mem_replicate hSC
  · exact List.eq_of_mem_replicate hEX

@[simp] theorem State.length_rat_resetWith : (State.resetWith cfg trace).rat.length = cfg.numArchRegs :=
  List.length_replicate

@[simp] theorem State.length_rob_resetWith : (State.resetWith cfg trace).rob.length = cfg.robSize :=
  List.length_replicate

@[simp] theorem State.length_exeq_resetWith : (State.resetWith cfg trace).exeq.length = cfg.exeqSize :=
  List.length_replicate

@[simp] theorem State.length_latchFE_resetWith : (State.resetWith cfg trace).latchFE.length = cfg.pipeWidth :=
  List.length_replicate

@[simp] theorem State.length_latchID_resetWith : (State.resetWith cfg trace).latchID.length = cfg.pipeWidth :=
  List.length_replicate

@[simp] theorem State.length_latchSC_resetWith : (State.resetWith cfg trace).latchSC.length = cfg.pipeWidth :=
  List.length_replicate

@[simp] theorem State.length_latchEX_resetWith : (State.resetWith cfg trace).latchEX.length = cfg.wbWidth :=
  List.length_replicate

end

/-- Settles O8: the arrays hold nothing but empty entries, whose flags are all clear; the registers and counters are
constants of the reset state. -/
theorem resetLeavesEverythingEmpty : Obligations.ResetLeavesEverythingEmpty := by
  rintro cfg trace s rfl
  have hrob (t : Nat) : ((State.resetWith cfg trace).robAt t).valid = false ∧
      ((State.resetWith cfg trace).robAt t).exec = false ∧ ((State.resetWith cfg trace).robAt t).ready = false := by
    rw [State.robAt_resetWith]
    exact ⟨rfl, rfl, rfl⟩
  have hexeq (q : Nat) : ((State.resetWith cfg trace).exeqAt q).valid = false := by
    rw [State.exeqAt_resetWith]
    rfl
  have hlane (l : Lane) (hl : l ∈ (State.resetWith cfg trace).latchFE ++ (State.resetWith cfg trace).latchID ++
      (State.resetWith cfg trace).latchSC ++ (State.resetWith cfg trace).latchEX) :
      l.valid = false ∧ l.stall = false := by
    rw [State.eq_empty_of_mem_latches_resetWith cfg trace hl]
    exact ⟨rfl, rfl⟩
  exact ⟨rfl, rfl, rfl,
    State.length_rat_resetWith .., fun r _ => State.ratAt_resetWith cfg trace r,
    State.length_rob_resetWith .., fun t _ => hrob t, rfl, rfl,
    State.length_exeq_resetWith .., fun q _ => hexeq q,
    State.length_latchFE_resetWith .., State.length_latchID_resetWith .., State.length_latchSC_resetWith ..,
    State.length_latchEX_resetWith .., hlane,
    rfl, rfl, rfl, rfl, rfl, rfl, rfl⟩

end Sys2Proof.Machine
end

section
/-! PROOFS. The trace stored as bytes (20_memory.md R76, R77): a word is its four bytes put together, so the bytes of a
record at the front of a stream are read back as that record. -/

namespace Sys2Proof.Machine

/-- The byte order of R76 loses nothing: adjacent bit fields of a word, put together, are the field that spans them. -/
@[simp] theorem wordOfBytes_fields (w : Word) :
    wordOfBytes (opcField w) (rdByte w) (rs1Byte w) (rs2Byte w) = w := by
  have hlow : rdByte w ++ opcField w = w.extractLsb' 0 16 := BitVec.extractLsb'_append_extractLsb'_eq_extractLsb' rfl
  have hmid : rs1Byte w ++ w.extractLsb' 0 16 = w.extractLsb' 0 24 :=
    BitVec.extractLsb'_append_extractLsb'_eq_extractLsb' rfl
  have htop : rs2Byte w ++ w.extractLsb' 0 24 = w.extractLsb' 0 32 :=
    BitVec.extractLsb'_append_extractLsb'_eq_extractLsb' rfl
  calc wordOfBytes (opcField w) (rdByte w) (rs1Byte w) (rs2Byte w)
      = rs2Byte w ++ (rs1Byte w ++ (rdByte w ++ opcField w)) := rfl
    _ = w.extractLsb' 0 32 := by rw [hlow, hmid, htop]
    _ = w := BitVec.extractLsb'_eq_self

/-! ## The words of a stream -/

@[simp] theorem wordsOfBytes_bytesOfWord_append (w : Word) (rest : List Byte) :
    wordsOfBytes (bytesOfWord w ++ rest) = w :: wordsOfBytes rest :=
  congrArg (· :: wordsOfBytes rest) (wordOfBytes_fields w)

/-- By the recursion of `wordsOfBytes`: four bytes more are one record more, and 0 to 3 bytes hold none. -/
theorem length_wordsOfBytes : ∀ bs : List Byte, (wordsOfBytes bs).length = bs.length / 4
  | b0 :: b1 :: b2 :: b3 :: rest => by
    calc (wordsOfBytes (b0 :: b1 :: b2 :: b3 :: rest)).length
        = (wordsOfBytes rest).length + 1 := rfl
      _ = rest.length / 4 + 1 := by rw [length_wordsOfBytes rest]
      _ = (rest.length + 4) / 4 := (Nat.add_div_right rest.length (by decide)).symm
  | [] | [_] | [_, _] | [_, _, _] => by simp [wordsOfBytes]

theorem wordsOfBytes_of_length_lt {bs : List Byte} (hbs : bs.length < 4) : wordsOfBytes bs = [] := by
  rw [← List.length_eq_zero_iff, length_wordsOfBytes, Nat.div_eq_of_lt hbs]

/-- By induction on the records before the tail: each word takes its own four bytes off the front. -/
theorem wordsOfBytes_flatMap_append (ws : List Word) {tail : List Byte} (htail : tail.length < 4) :
    wordsOfBytes (ws.flatMap bytesOfWord ++ tail) = ws := by
  induction ws with
  | nil => exact wordsOfBytes_of_length_lt htail
  | cons w ws ih => rw [List.flatMap_cons, List.append_assoc, wordsOfBytes_bytesOfWord_append, ih]

/-! ## One read -/

/-- A read decodes exactly the first record, and what it leaves is the rest of the stream. -/
theorem decodeBytes_bytesOfWord_append {n : Nat} {w : Word} {i : Instr} (rest : List Byte)
    (hw : decodeRecord n w = .ok i) : decodeBytes n (bytesOfWord w ++ rest) = .ok (i, rest) := by
  simp only [bytesOfWord, List.cons_append, List.nil_append, decodeBytes, wordOfBytes_fields, hw]

/-- No record in fewer than 4 bytes: an empty stream has ended, 1 to 3 bytes are a partial record. -/
theorem decodeBytes_of_length_lt (n : Nat) {bs : List Byte} (hbs : bs.length < 4) :
    decodeBytes n bs = .error (if bs.length = 0 then .endOfStream else .partialRecord bs.length) := by
  match bs with
  | [] | [_] | [_, _] | [_, _, _] => rfl
  | _ :: _ :: _ :: _ :: _ => exact absurd hbs (by simp)

/-- Settles O5: the bytes are the fields of the word by definition; the rest is one clause for each lemma above. -/
theorem byteStreamHoldsWholeRecords : Obligations.ByteStreamHoldsWholeRecords :=
  ⟨fun _ => rfl, fun ws _ => wordsOfBytes_flatMap_append ws, length_wordsOfBytes,
    fun _ _ _ rest => decodeBytes_bytesOfWord_append rest, fun n _ => decodeBytes_of_length_lt n⟩

end Sys2Proof.Machine
end

section
/-! PROOFS. The fields of the record encoding (30_encoding.md R91 to R95): what each function of the decoder and of the
encoder says of a byte or a word. -/

namespace Sys2Proof

/-! ## The parts of an instruction (R94) -/

@[simp] theorem OpClass.op_instr (op : OpClass) (d s1 s2 : Operand) : (op.instr d s1 s2).op = op := by
  cases op <;> rfl

@[simp] theorem OpClass.dest_instr (op : OpClass) (d s1 s2 : Operand) : (op.instr d s1 s2).dest = d := by
  cases op <;> rfl

@[simp] theorem OpClass.src1_instr (op : OpClass) (d s1 s2 : Operand) : (op.instr d s1 s2).src1 = s1 := by
  cases op <;> rfl

@[simp] theorem OpClass.src2_instr (op : OpClass) (d s1 s2 : Operand) : (op.instr d s1 s2).src2 = s2 := by
  cases op <;> rfl

/-- An instruction is its class and its three operands. -/
@[simp] theorem Instr.instr_eta (i : Instr) : i.op.instr i.dest i.src1 i.src2 = i := by
  cases i <;> rfl

theorem Instr.wellFormed_iff {n : Nat} {i : Instr} :
    i.wellFormed n = true ↔ ∀ o ∈ [i.dest, i.src1, i.src2], Operand.inRange n o = true := by
  simp [Instr.wellFormed, and_assoc]

/-! ## Operand bytes (R92, R95) -/

theorem operandOf_of_used {b : Byte} (hb : b.getLsbD 7 = true) : operandOf b = some (b.extractLsb' 0 7) := if_pos hb

theorem operandOf_of_unused {b : Byte} (hb : b.getLsbD 7 = false) : operandOf b = none :=
  if_neg (Bool.eq_false_iff.mp hb)

/-- R95: the register bits count only where the used flag is 1. -/
theorem operandOf_congr {b c : Byte} (hflag : b.getLsbD 7 = c.getLsbD 7) (hused : b.getLsbD 7 = true → b = c) :
    operandOf b = operandOf c := by
  cases hb : b.getLsbD 7 with
  | true => rw [hused hb]
  | false => rw [operandOf_of_unused hb, operandOf_of_unused (hflag ▸ hb)]

@[simp] theorem opnd_none : opnd none = 0x00#8 := rfl

theorem opnd_some_eq_or (r : RegNum) : opnd (some r) = 0x80#8 ||| r.setWidth 8 :=
  BitVec.append_def 1#1 r

@[simp] theorem operandOf_opnd (o : Operand) : operandOf (opnd o) = o := by
  cases o with
  | none => rfl
  | some r =>
    have hused : (opnd (some r)).getLsbD 7 = true := BitVec.getLsbD_append
    have hreg : (opnd (some r)).extractLsb' 0 7 = r := BitVec.extractLsb'_append_eq_right
    rw [operandOf_of_used hused, hreg]

/-- A used byte is the flag above the register number. -/
theorem opnd_extractLsb' {b : Byte} (hb : b.getLsbD 7 = true) : opnd (some (b.extractLsb' 0 7)) = b := by
  have hflag : b.extractLsb' 7 1 = 1#1 := by
    ext k hk
    obtain rfl : k = 0 := by omega
    simpa using hb
  calc opnd (some (b.extractLsb' 0 7))
      = b.extractLsb' 7 1 ++ b.extractLsb' 0 7 := by rw [hflag]; rfl
    _ = b.extractLsb' 0 8 := BitVec.extractLsb'_append_extractLsb'_eq_extractLsb' rfl
    _ = b := BitVec.extractLsb'_eq_self

/-- An operand byte survives decoding exactly when it is used or zero, which is what `canonical` asks of it. -/
theorem opnd_operandOf_eq_iff (b : Byte) : opnd (operandOf b) = b ↔ (b.getLsbD 7 || b == 0x00#8) = true := by
  cases hb : b.getLsbD 7 with
  | true =>
    rw [operandOf_of_used hb, Bool.true_or]
    exact iff_of_true (opnd_extractLsb' hb) rfl
  | false =>
    rw [operandOf_of_unused hb, opnd_none, Bool.false_or, beq_iff_eq]
    exact eq_comm

/-- R100 for one operand byte. -/
theorem inRange_operandOf_eq_false_iff (n : Nat) (b : Byte) :
    Operand.inRange n (operandOf b) = false ↔ b.getLsbD 7 = true ∧ n ≤ (b.extractLsb' 0 7).toNat := by
  cases hb : b.getLsbD 7 with
  | true => simp [operandOf_of_used hb, Operand.inRange]
  | false => simp [operandOf_of_unused hb, Operand.inRange]

/-- A field of a byte of the word, or a bit of it, is a field or a bit of the word. -/
theorem extractLsb'_zero_extractLsb' (w : Word) {start len len' : Nat} (hlen : len' ≤ len) :
    (w.extractLsb' start len).extractLsb' 0 len' = w.extractLsb' start len' := by
  ext k hk
  simp [show k < len by omega]

theorem rdByte_getLsbD (w : Word) : (rdByte w).getLsbD 7 = w.getLsbD 15 := by simp [rdByte]

theorem rs1Byte_getLsbD (w : Word) : (rs1Byte w).getLsbD 7 = w.getLsbD 23 := by simp [rs1Byte]

theorem rs2Byte_getLsbD (w : Word) : (rs2Byte w).getLsbD 7 = w.getLsbD 31 := by simp [rs2Byte]

/-! ## Op codes (R93, R99) -/

/-- A code selects a class exactly when it is the class's own. -/
theorem classOf_eq_some_iff {c : Byte} {op : OpClass} : classOf c = some op ↔ c = op.code := by
  constructor
  · intro h
    unfold classOf at h
    split_ifs at h <;> cases h <;> assumption
  · rintro rfl
    cases op <;> rfl

/-- R99: the codes of no class are the reserved ones. -/
theorem classOf_eq_none_iff {c : Byte} : classOf c = none ↔ 5 ≤ c.toNat := by
  constructor
  · intro h
    unfold classOf at h
    split_ifs at h
    bv_omega
  · intro hc
    refine Option.eq_none_iff_forall_ne_some.mpr fun op hop => ?_
    rw [classOf_eq_some_iff] at hop
    subst hop
    cases op <;> exact absurd hc (by decide)

/-! ## The fields of an encoded instruction (R106) -/

theorem encode_eq_wordOfBytes (i : Instr) :
    encode i = wordOfBytes i.op.code (opnd i.dest) (opnd i.src1) (opnd i.src2) := rfl

/-- The five lemmas of the model's family `EncodedFields`, one for each class, as one. -/
theorem encodedFields (i : Instr) : Laws.EncodedFields.Statement i := Laws.EncodedFields.bytes_of_append _ _ _ _

@[simp] theorem opcField_encode (i : Instr) : opcField (encode i) = i.op.code :=
  let ⟨hop, _, _, _⟩ := encodedFields i
  hop

@[simp] theorem rdByte_encode (i : Instr) : rdByte (encode i) = opnd i.dest :=
  let ⟨_, hd, _, _⟩ := encodedFields i
  hd

@[simp] theorem rs1Byte_encode (i : Instr) : rs1Byte (encode i) = opnd i.src1 :=
  let ⟨_, _, h1, _⟩ := encodedFields i
  h1

@[simp] theorem rs2Byte_encode (i : Instr) : rs2Byte (encode i) = opnd i.src2 :=
  let ⟨_, _, _, h2⟩ := encodedFields i
  h2

/-- A word is determined by its four bytes. -/
theorem encode_eq_iff {i : Instr} {w : Word} :
    encode i = w ↔
      i.op.code = opcField w ∧ opnd i.dest = rdByte w ∧ opnd i.src1 = rs1Byte w ∧ opnd i.src2 = rs2Byte w := by
  constructor
  · rintro rfl
    simp
  · rintro ⟨hop, hd, h1, h2⟩
    rw [encode_eq_wordOfBytes, hop, hd, h1, h2, Machine.wordOfBytes_fields]

/-! ## Decoding a word (R94, R99, R100) -/

/-- The instruction of a class whose operands are a word's. -/
def OpClass.instrOf (op : OpClass) (w : Word) : Instr :=
  op.instr (operandOf (rdByte w)) (operandOf (rs1Byte w)) (operandOf (rs2Byte w))

section
variable {w : Word} {op : OpClass}

theorem decodeWord_of_reserved (hop : classOf (opcField w) = none) :
    decodeWord w = .error (.reservedOpcode (opcField w)) := by
  rw [decodeWord, hop]

theorem decodeWord_of_classOf (hop : classOf (opcField w) = some op) : decodeWord w = .ok (op.instrOf w) := by
  rw [decodeWord, hop]
  rfl

theorem decodeRecord_of_reserved (n : Nat) (hop : classOf (opcField w) = none) :
    decodeRecord n w = .error (.reservedOpcode (opcField w)) := by
  rw [decodeRecord, decodeWord_of_reserved hop]

theorem decodeRecord_of_classOf (n : Nat) (hop : classOf (opcField w) = some op) :
    decodeRecord n w =
      if (op.instrOf w).wellFormed n then .ok (op.instrOf w) else .error (.registerOutOfRange (op.instrOf w)) := by
  rw [decodeRecord, decodeWord_of_classOf hop]

end

/-- What a word that decodes holds: the class's op code and its operands' bytes. -/
theorem decodeWord_eq_ok_iff {w : Word} {i : Instr} :
    decodeWord w = .ok i ↔
      opcField w = i.op.code ∧ operandOf (rdByte w) = i.dest ∧ operandOf (rs1Byte w) = i.src1 ∧
        operandOf (rs2Byte w) = i.src2 := by
  constructor
  · intro h
    cases hop : classOf (opcField w) with
    | none =>
      rw [decodeWord_of_reserved hop] at h
      cases h
    | some op =>
      rw [decodeWord_of_classOf hop] at h
      cases h
      simp [OpClass.instrOf, classOf_eq_some_iff.mp hop]
  · rintro ⟨hop, hd, h1, h2⟩
    rw [decodeWord_of_classOf (classOf_eq_some_iff.mpr hop), OpClass.instrOf, hd, h1, h2, Instr.instr_eta]

theorem decodeRecord_eq_ok_iff {n : Nat} {w : Word} {i : Instr} :
    decodeRecord n w = .ok i ↔ decodeWord w = .ok i ∧ i.wellFormed n = true := by
  unfold decodeRecord
  constructor
  · intro h
    split at h
    next hw =>
      split at h
      next hwf => cases h; exact ⟨hw, hwf⟩
      next => cases h
    next => cases h
  · rintro ⟨hw, hwf⟩
    simp [hw, hwf]

theorem decodeWord_encode (i : Instr) : decodeWord (encode i) = .ok i := decodeWord_eq_ok_iff.mpr (by simp)

end Sys2Proof
end

section
/-! PROOFS. The canonical encoder against the decoder (30_encoding.md R106): both are byte by byte, so the round trips of a
word are those of an operand byte. -/

namespace Sys2Proof

theorem decodeRecord_encode {n : Nat} {i : Instr} (hi : i.wellFormed n = true) : decodeRecord n (encode i) = .ok i :=
  decodeRecord_eq_ok_iff.mpr ⟨decodeWord_encode i, hi⟩

theorem canonical_iff (w : Word) :
    canonical w = true ↔
      opnd (operandOf (rdByte w)) = rdByte w ∧ opnd (operandOf (rs1Byte w)) = rs1Byte w ∧
        opnd (operandOf (rs2Byte w)) = rs2Byte w := by
  simp only [opnd_operandOf_eq_iff, canonical, List.all_cons, List.all_nil, Bool.and_true, Bool.and_eq_true]

theorem encode_eq_iff_canonical {w : Word} {i : Instr} (hw : decodeWord w = .ok i) :
    encode i = w ↔ canonical w = true := by
  obtain ⟨hop, hd, h1, h2⟩ := decodeWord_eq_ok_iff.mp hw
  rw [encode_eq_iff, canonical_iff, hop, hd, h1, h2]
  exact and_iff_right rfl

theorem toNat_append_eq_add {m n : Nat} (x : BitVec m) (y : BitVec n) :
    (x ++ y).toNat = 2 ^ n * x.toNat + y.toNat := by
  rw [BitVec.toNat_append, ← Nat.shiftLeft_add_eq_or_of_lt y.isLt, Nat.shiftLeft_eq, Nat.mul_comm]

/-- R106's sum: each byte weighs 2 ^ 8 times the one below it. -/
theorem toNat_encode (i : Instr) :
    (encode i).toNat =
      i.op.code.toNat + 2 ^ 8 * (opnd i.dest).toNat + 2 ^ 16 * (opnd i.src1).toNat + 2 ^ 24 * (opnd i.src2).toNat := by
  simp only [encode, toNat_append_eq_add]
  omega

/-- Settles O1: the two round trips above, and the formula's parts. -/
theorem recordEncodingRoundTrips : Obligations.RecordEncodingRoundTrips :=
  ⟨toNat_encode, opnd_none, opnd_some_eq_or, fun _ _ => decodeRecord_encode,
    fun _ _ _ h => encode_eq_iff_canonical (decodeRecord_eq_ok_iff.mp h).1, rfl, rfl, rfl, rfl, rfl⟩

end Sys2Proof
end

section
/-! PROOFS. The mask and match table (30_encoding.md R98): every row masks the op code field and compares it with one
class's code, so looking a word up in the table is looking its op code up among the classes. -/

namespace Sys2Proof

/-- The row of a class: the op code field is to hold the class's code. -/
def OpClass.row (op : OpClass) : OpcodeRow := ⟨0x000000FF#32, 0#24 ++ op.code, op⟩

/-- The classes in the order of the table's rows. -/
def OpClass.all : List OpClass := [.alu, .ld, .st, .cbr, .other]

theorem opcodeRows_eq_map_row : opcodeRows = OpClass.all.map OpClass.row := rfl

/-- The mask keeps the op code field and clears the operands. -/
theorem and_mask_eq (w : Word) : w &&& 0x000000FF#32 = 0#24 ++ opcField w := by
  calc w &&& 0x000000FF#32
      = 0#24 ++ w.setWidth 8 := BitVec.and_setWidth_allOnes 24 8 w
    _ = 0#24 ++ opcField w := by rw [BitVec.setWidth_eq_extractLsb' (by decide)]; rfl

theorem row_matches_iff (w : Word) (op : OpClass) : w &&& op.row.mask = op.row.pattern ↔ opcField w = op.code := by
  calc w &&& op.row.mask = op.row.pattern
      ↔ 0#24 ++ opcField w = 0#24 ++ op.code := by rw [← and_mask_eq]; rfl
    _ ↔ opcField w = op.code := BitVec.append_right_inj 0#24

theorem classOf_eq_find? (c : Byte) : classOf c = OpClass.all.find? (fun op => decide (c = op.code)) := by
  unfold classOf
  split_ifs <;> simp_all [OpClass.all, OpClass.code]

theorem rowOf_eq_map_classOf (w : Word) : rowOf w = (classOf (opcField w)).map OpClass.row := by
  have hmatch : (fun r : OpcodeRow => decide (w &&& r.mask = r.pattern)) ∘ OpClass.row =
      fun op => decide (opcField w = op.code) :=
    funext fun op => decide_eq_decide.mpr (row_matches_iff w op)
  rw [rowOf, opcodeRows_eq_map_row, List.find?_map, hmatch, ← classOf_eq_find?]

/-- Settles O2: the table's row and the decoder's op code select the same class, and the range check is the same. -/
theorem decoderFollowsMaskAndMatchRows : Obligations.DecoderFollowsMaskAndMatchRows := by
  refine ⟨rfl, fun n w => ?_⟩
  rw [rowOf_eq_map_classOf]
  cases hop : classOf (opcField w) with
  | none => exact decodeRecord_of_reserved n hop
  | some op => exact decodeRecord_of_classOf n hop

end Sys2Proof
end

section
/-! PROOFS. Malformed words (30_encoding.md R99, R100). -/

namespace Sys2Proof

theorem malformed_of_reserved {w : Word} (n : Nat) (hop : classOf (opcField w) = none) : malformed n w = true := by
  rw [malformed, decodeRecord_of_reserved n hop]

/-- Past the op code only the range check is left. -/
theorem malformed_of_classOf {w : Word} {op : OpClass} (n : Nat) (hop : classOf (opcField w) = some op) :
    malformed n w = !(op.instrOf w).wellFormed n := by
  rw [malformed, decodeRecord_of_classOf n hop]
  cases (op.instrOf w).wellFormed n <;> rfl

/-- Whether a word is malformed, by its op code and then its operand bytes. -/
theorem malformed_iff (n : Nat) (w : Word) :
    malformed n w = true ↔
      5 ≤ (opcField w).toNat ∨ Operand.inRange n (operandOf (rdByte w)) = false ∨
        Operand.inRange n (operandOf (rs1Byte w)) = false ∨ Operand.inRange n (operandOf (rs2Byte w)) = false := by
  rw [← classOf_eq_none_iff]
  cases hop : classOf (opcField w) with
  | none => exact iff_of_true (malformed_of_reserved n hop) (.inl rfl)
  | some op =>
    rw [malformed_of_classOf n hop]
    simp only [Instr.wellFormed, OpClass.instrOf, OpClass.dest_instr, OpClass.src1_instr, OpClass.src2_instr,
      Bool.not_eq_true', Bool.and_eq_false_iff, or_assoc, reduceCtorEq, false_or]

theorem malformed_iff_bits (n : Nat) (w : Word) :
    malformed n w = true ↔
      5 ≤ (w.extractLsb' 0 8).toNat ∨
      (w.getLsbD 15 = true ∧ n ≤ (w.extractLsb' 8 7).toNat) ∨
      (w.getLsbD 23 = true ∧ n ≤ (w.extractLsb' 16 7).toNat) ∨
      (w.getLsbD 31 = true ∧ n ≤ (w.extractLsb' 24 7).toNat) := by
  have hrd : (rdByte w).extractLsb' 0 7 = w.extractLsb' 8 7 := extractLsb'_zero_extractLsb' w (by decide)
  have hrs1 : (rs1Byte w).extractLsb' 0 7 = w.extractLsb' 16 7 := extractLsb'_zero_extractLsb' w (by decide)
  have hrs2 : (rs2Byte w).extractLsb' 0 7 = w.extractLsb' 24 7 := extractLsb'_zero_extractLsb' w (by decide)
  rw [malformed_iff, inRange_operandOf_eq_false_iff, inRange_operandOf_eq_false_iff, inRange_operandOf_eq_false_iff,
    rdByte_getLsbD, rs1Byte_getLsbD, rs2Byte_getLsbD, hrd, hrs1, hrs2, opcField]

/-- Every register number of the record is below 128, so only the op code is left to refuse. -/
theorem malformed_128_iff (w : Word) : malformed 128 w = true ↔ 5 ≤ (w.extractLsb' 0 8).toNat := by
  have hreg (r : RegNum) : ¬ 128 ≤ r.toNat := Nat.not_le.mpr r.isLt
  simp only [malformed_iff_bits, hreg, and_false, or_false]

theorem regIndex_lt_of_inRange {n : Nat} {o : Operand} (ho : Operand.inRange n o = true) :
    ∀ r ∈ Machine.regIndex o, r < n := by
  cases o with
  | none => exact fun _ hr => nomatch hr
  | some r =>
    rintro _ ⟨⟩
    exact (Machine.inRange_some_iff n r).mp ho

/-- Settles O3: a decoded instruction has passed the range check, operand by operand. -/
theorem malformedWordsAreTheReservedAndOutOfRange : Obligations.MalformedWordsAreTheReservedAndOutOfRange := by
  refine ⟨malformed_iff_bits, malformed_128_iff, fun n w i h o ho => ?_⟩
  obtain ⟨-, hwf⟩ := decodeRecord_eq_ok_iff.mp h
  exact regIndex_lt_of_inRange (Instr.wellFormed_iff.mp hwf o ho)

end Sys2Proof
end

section
/-! PROOFS. Register bits of an unused operand (30_encoding.md R95). -/

namespace Sys2Proof

theorem decodeRecord_congr {w v : Word} (n : Nat) (hop : opcField w = opcField v)
    (hd : operandOf (rdByte w) = operandOf (rdByte v)) (h1 : operandOf (rs1Byte w) = operandOf (rs1Byte v))
    (h2 : operandOf (rs2Byte w) = operandOf (rs2Byte v)) : decodeRecord n w = decodeRecord n v := by
  simp only [decodeRecord, decodeWord, hop, hd, h1, h2]

/-- Settles O4: decoding reads an operand byte through `operandOf` alone, which ignores the bits of an unused one. -/
theorem unusedRegisterBitsAreIgnored : Obligations.UnusedRegisterBitsAreIgnored := by
  refine ⟨fun n w v hop hbytes => ?_, fun w i h => ?_, fun i => ⟨fun hd => ?_, fun h1 => ?_, fun h2 => ?_⟩⟩
  · have hoperand (f : Word → Byte) (hf : f ∈ [rdByte, rs1Byte, rs2Byte]) : operandOf (f w) = operandOf (f v) :=
      let ⟨hflag, hused⟩ := hbytes f hf
      operandOf_congr hflag hused
    exact decodeRecord_congr n hop (hoperand _ (by simp)) (hoperand _ (by simp)) (hoperand _ (by simp))
  · obtain ⟨-, hd, h1, h2⟩ := decodeWord_eq_ok_iff.mp h
    rw [← rdByte_getLsbD, ← rs1Byte_getLsbD, ← rs2Byte_getLsbD, ← hd, ← h1, ← h2]
    exact ⟨operandOf_of_unused, operandOf_of_unused, operandOf_of_unused⟩
  · rw [rdByte_encode, hd, opnd_none]
  · rw [rs1Byte_encode, h1, opnd_none]
  · rw [rs2Byte_encode, h2, opnd_none]

end Sys2Proof
end

section
/-! PROOFS. The eleven states of an instruction (48_instruction_classes.md R257). Under `Inv` the sequence numbers from 1
on fall into five consecutive intervals: retired, in the ROB, in the decode latch, in the fetch latch, not yet fetched.
Every interval but the ROB's is one state; in the ROB the slot's flags decide, and of a slot in
execution the place of its one travelling copy. -/

namespace Sys2Proof.Machine

variable {s : State} {q : Nat}

/-! ## Where a sequence number stands -/

theorem latchHolds_iff {latch : List Lane} : latchHolds latch q = true ↔ q ∈ latchSeqs latch := by
  simp [latchHolds, latchSeqs, and_assoc]

theorem latchHolds_eq_false_iff {latch : List Lane} : latchHolds latch q = false ↔ q ∉ latchSeqs latch := by
  rw [← latchHolds_iff, Bool.not_eq_true]

theorem exeqHolds_iff {p : Inst → Bool} :
    exeqHolds s q p = true ↔ ∃ c ∈ exeqRecords s, c.seq = q ∧ p c = true := by
  simp [exeqHolds, exeqRecords, and_assoc]

theorem map_seq_travellers (s : State) :
    (travellers s).map (fun c => c.seq) =
      latchSeqs s.latchSC ++ (exeqRecords s).map (fun c => c.seq) ++ latchSeqs s.latchEX := by
  simp [travellers, latchSeqs, laneRecords, Function.comp_def]

theorem travels_iff : travels s q = true ↔ ∃ c ∈ travellers s, c.seq = q := by
  rw [← List.mem_map, map_seq_travellers]
  simp [travels, latchHolds_iff, exeqHolds_iff, or_assoc]

theorem length_rob_of_wellShaped (hshape : wellShaped s = true) : s.rob.length = s.cfg.robSize := by
  simp only [wellShaped, Bool.and_eq_true, beq_iff_eq] at hshape
  tauto

theorem robHead_lt_of_wellShaped (hshape : wellShaped s = true) : s.robHead < s.cfg.robSize := by
  simp only [wellShaped, Bool.and_eq_true, decide_eq_true_eq] at hshape
  tauto

theorem robCount_le (hshape : wellShaped s = true) : robCount s ≤ s.cfg.robSize :=
  List.countP_le_length.trans_eq (length_rob_of_wellShaped hshape)

theorem robHolds_iff (hshape : wellShaped s = true) {p : RobSlot → Bool} :
    robHolds s q p = true ↔
      ∃ t < s.cfg.robSize, (s.robAt t).valid = true ∧ (s.robAt t).inst.seq = q ∧ p (s.robAt t) = true := by
  simp only [robHolds, List.any_eq_true, List.mem_iff_getElem, ← length_rob_of_wellShaped hshape, State.robAt]
  constructor
  · rintro ⟨_, ⟨t, ht, rfl⟩, hx⟩
    exact ⟨t, ht, by simpa [ht, and_assoc] using hx⟩
  · rintro ⟨t, ht, hx⟩
    exact ⟨_, ⟨t, ht, rfl⟩, by simpa [ht, and_assoc] using hx⟩

/-- The slots counted from the head are all the slots. -/
theorem exists_fromHead {head n t : Nat} (hhead : head < n) (ht : t < n) : ∃ k < n, (head + k) % n = t := by
  refine ⟨(t + n - head) % n, Nat.mod_lt _ (by omega), ?_⟩
  rw [Nat.add_mod_mod, Nat.add_sub_cancel' (by omega), Nat.add_mod_right, Nat.mod_eq_of_lt ht]

/-- The window read from a slot: a valid one is one of the first `robCount` from the head, and its place gives its
sequence number (R277). -/
theorem Inv.eq_slotFromHead {t : Nat} (hinv : Inv s) (ht : t < s.cfg.robSize) (hvalid : (s.robAt t).valid = true) :
    ∃ k < robCount s, s.robAt t = slotFromHead s k ∧ (s.robAt t).inst.seq = s.retiredCount + 1 + k := by
  obtain ⟨-, hwindow, hseq⟩ := hinv.window
  obtain ⟨k, hk, rfl⟩ := exists_fromHead (robHead_lt_of_wellShaped hinv.shape) ht
  have hcount : k < robCount s := of_decide_eq_true ((hwindow k hk).symm.trans hvalid)
  exact ⟨k, hcount, rfl, hseq k hk hcount⟩

/-- Each number of the window has its own slot: a test of the ROB at the number is the test of that slot. -/
theorem Inv.exists_robHolds_eq (hinv : Inv s) (hlow : s.retiredCount < q) (hhigh : q ≤ s.retiredCount + robCount s) :
    ∃ x : RobSlot, ∀ p, robHolds s q p = p x := by
  obtain ⟨-, hwindow, hseq⟩ := hinv.window
  obtain ⟨k, rfl⟩ : ∃ k, q = s.retiredCount + 1 + k := ⟨q - (s.retiredCount + 1), by omega⟩
  have hk : k < robCount s := by omega
  have hlt : k < s.cfg.robSize := hk.trans_le (robCount_le hinv.shape)
  refine ⟨slotFromHead s k, fun p => ?_⟩
  rw [Bool.eq_iff_iff, robHolds_iff hinv.shape]
  constructor
  · rintro ⟨t, ht, hvalid, hq, hp⟩
    obtain ⟨j, -, hslot, hj⟩ := hinv.eq_slotFromHead ht hvalid
    obtain rfl : j = k := by omega
    rwa [← hslot]
  · intro hp
    exact ⟨_, Nat.mod_lt _ s.cfg.one_le_robSize, (hwindow k hlt).trans (decide_eq_true hk), hseq k hlt hk, hp⟩

theorem Inv.window_of_robHolds {p : RobSlot → Bool} (hinv : Inv s) (hq : robHolds s q p = true) :
    s.retiredCount < q ∧ q ≤ s.retiredCount + robCount s := by
  obtain ⟨t, ht, hvalid, rfl, -⟩ := (robHolds_iff hinv.shape).mp hq
  obtain ⟨k, hk, -, hseq⟩ := hinv.eq_slotFromHead ht hvalid
  omega

/-- What travels is what is in execution in the ROB (R278). -/
theorem Inv.travels_eq_robHolds (hinv : Inv s) : travels s q = robHolds s q inExecution := by
  obtain ⟨hcopy, -, hslots⟩ := hinv.copies
  rw [Bool.eq_iff_iff, travels_iff, robHolds_iff hinv.shape]
  constructor
  · rintro ⟨c, hc, rfl⟩
    obtain ⟨t, ht, -, hvalid, hexec, hready, hseq, -⟩ := hcopy c hc
    exact ⟨t, ht, hvalid, hseq, by simp [inExecution, hexec, hready]⟩
  · rintro ⟨t, ht, hvalid, hseq, hp⟩
    simp only [inExecution, Bool.and_eq_true, Bool.not_eq_true'] at hp
    obtain ⟨hexec, hready⟩ := hp
    obtain ⟨c, hc, htag⟩ := hslots t ht hvalid hexec hready
    obtain ⟨u, -, hu, -, -, -, hcseq, -⟩ := hcopy c hc
    obtain rfl : t = u := Option.some.inj (htag.symm.trans hu)
    exact ⟨c, hc, hcseq.symm.trans hseq⟩

theorem Inv.latchHolds_ID (hinv : Inv s) :
    latchHolds s.latchID q = decide (s.retiredCount + robCount s < q ∧
      q ≤ s.retiredCount + robCount s + laneCount s.latchID) := by
  obtain ⟨hID, -, -⟩ := hinv.front
  rw [Bool.eq_iff_iff, latchHolds_iff, hID.mem_iff, List.mem_range'_1, decide_eq_true_iff]
  omega

theorem Inv.latchHolds_FE (hinv : Inv s) :
    latchHolds s.latchFE q = decide (s.retiredCount + robCount s + laneCount s.latchID < q ∧ q ≤ s.lastSeq) := by
  obtain ⟨-, hFE, hlast⟩ := hinv.front
  rw [Bool.eq_iff_iff, latchHolds_iff, hFE.mem_iff, List.mem_range'_1, decide_eq_true_iff]
  omega

/-! ## The one place of a travelling copy -/

theorem exeqHolds_eq_false (hq : q ∉ (exeqRecords s).map (fun c => c.seq)) (p : Inst → Bool) :
    exeqHolds s q p = false := by
  rw [Bool.eq_false_iff, Ne, exeqHolds_iff]
  rintro ⟨c, hc, hseq, -⟩
  exact hq (List.mem_map.mpr ⟨c, hc, hseq⟩)

/-- An EXEQ without two records of one number holds a number as its record satisfies the test. -/
theorem exeqHolds_eq {c : Inst} (hnodup : ((exeqRecords s).map (fun c => c.seq)).Nodup) (hc : c ∈ exeqRecords s)
    (p : Inst → Bool) : exeqHolds s c.seq p = p c := by
  rw [Bool.eq_iff_iff, exeqHolds_iff]
  constructor
  · rintro ⟨d, hd, hseq, hp⟩
    rwa [List.inj_on_of_nodup_map hnodup hc hd hseq.symm]
  · exact fun hp => ⟨c, hc, rfl, hp⟩

/-- What travels is in the schedule latch, in the EXEQ or in the execute latch, and in one of them alone (R278). -/
theorem Inv.place_of_travels (hinv : Inv s) (hq : travels s q = true) :
    (latchHolds s.latchSC q = true ∧ (∀ p, exeqHolds s q p = false) ∧ latchHolds s.latchEX q = false) ∨
    (latchHolds s.latchSC q = false ∧ (∃ c : Inst, ∀ p, exeqHolds s q p = p c) ∧ latchHolds s.latchEX q = false) ∨
    (latchHolds s.latchSC q = false ∧ (∀ p, exeqHolds s q p = false) ∧ latchHolds s.latchEX q = true) := by
  obtain ⟨-, hnodup, -⟩ := hinv.copies
  rw [map_seq_travellers, List.nodup_append', List.nodup_append'] at hnodup
  obtain ⟨⟨-, hexeq, hSC⟩, -, hEX⟩ := hnodup
  rw [travels_iff, ← List.mem_map, map_seq_travellers, List.mem_append, List.mem_append] at hq
  simp only [latchHolds_eq_false_iff, latchHolds_iff]
  rcases hq with (hq | hq) | hq
  · exact .inl ⟨hq, exeqHolds_eq_false (hSC hq), hEX (List.mem_append_left _ hq)⟩
  · obtain ⟨c, hc, rfl⟩ := List.mem_map.mp hq
    exact .inr (.inl ⟨fun h => hSC h hq, ⟨c, exeqHolds_eq hexeq hc⟩, hEX (List.mem_append_right _ hq)⟩)
  · exact .inr (.inr ⟨fun h => hEX (List.mem_append_left _ h) hq,
      exeqHolds_eq_false (fun h => hEX (List.mem_append_right _ h) hq), hq⟩)

/-! ## The state of an instruction -/

/-- `p` is the one state of the instruction with sequence number `q`. -/
def OnlyPhase (s : State) (q : Nat) (p : Phase) : Prop := ∀ p', inPhase s q p' = true ↔ p' = p

/-- Outside the ROB's interval no slot holds the number and nothing of it travels: the four other intervals decide. -/
theorem Inv.inPhase_outside_rob (hinv : Inv s) (hpos : 1 ≤ q)
    (hout : q ≤ s.retiredCount ∨ s.retiredCount + robCount s < q) (p : Phase) :
    inPhase s q p = true ↔
      p = .committed ∧ q ≤ s.retiredCount ∨
      p = .decoded ∧ s.retiredCount + robCount s < q ∧ q ≤ s.retiredCount + robCount s + laneCount s.latchID ∨
      p = .fetched ∧ s.retiredCount + robCount s + laneCount s.latchID < q ∧ q ≤ s.lastSeq ∨
      p = .unfetched ∧ s.lastSeq < q := by
  have hrob (p : RobSlot → Bool) : robHolds s q p = false :=
    Bool.eq_false_iff.mpr fun h => by have := hinv.window_of_robHolds h; omega
  have htravels : travels s q = false := hinv.travels_eq_robHolds.trans (hrob _)
  cases p <;> simp [inPhase, hrob, htravels, hinv.latchHolds_FE, hinv.latchHolds_ID]
  case committed => omega

theorem Inv.onlyPhase_outside_rob (hinv : Inv s) (hpos : 1 ≤ q)
    (hout : q ≤ s.retiredCount ∨ s.retiredCount + robCount s < q) : ∃ p, OnlyPhase s q p := by
  obtain ⟨-, -, hlast⟩ := hinv.front
  simp only [OnlyPhase, hinv.inPhase_outside_rob hpos hout]
  by_cases hretired : q ≤ s.retiredCount
  · exact ⟨.committed, fun p => by grind⟩
  by_cases hdecoded : q ≤ s.retiredCount + robCount s + laneCount s.latchID
  · exact ⟨.decoded, fun p => by grind⟩
  by_cases hfetched : q ≤ s.lastSeq
  · exact ⟨.fetched, fun p => by grind⟩
  · exact ⟨.unfetched, fun p => by grind⟩

/-- In the ROB the number's slot decides, and of a slot in execution the place of its copy. -/
theorem Inv.inPhase_in_rob {x : RobSlot} (hinv : Inv s) (hslot : ∀ p, robHolds s q p = p x) (p : Phase) :
    inPhase s q p = true ↔
      p = .waiting ∧ x.exec = false ∧ (!(x.inst.src1Ready && x.inst.src2Ready)) = true ∨
      p = .ready ∧ x.exec = false ∧ (x.inst.src1Ready && x.inst.src2Ready) = true ∨
      p = .scheduled ∧ inExecution x = true ∧ latchHolds s.latchSC q = true ∨
      p = .executing ∧ inExecution x = true ∧ exeqHolds s q (fun c => decide (0 < c.wait)) = true ∨
      p = .finished ∧ inExecution x = true ∧ exeqHolds s q (fun c => c.wait == 0) = true ∨
      p = .executed ∧ inExecution x = true ∧ latchHolds s.latchEX q = true ∨
      p = .completed ∧ x.exec = true ∧ x.ready = true := by
  obtain ⟨-, -, hlast⟩ := hinv.front
  obtain ⟨hlow, hhigh⟩ := hinv.window_of_robHolds (hslot fun _ => true)
  cases p <;> simp [inPhase, hslot, hinv.travels_eq_robHolds, hinv.latchHolds_FE, hinv.latchHolds_ID]
  case completed => simp +contextual [inExecution]
  all_goals omega

theorem Inv.onlyPhase_in_rob {x : RobSlot} (hinv : Inv s) (hslot : ∀ p, robHolds s q p = p x) :
    ∃ p, OnlyPhase s q p := by
  simp only [OnlyPhase, hinv.inPhase_in_rob hslot]
  cases hexec : x.exec with
  | false =>
    cases hsources : x.inst.src1Ready && x.inst.src2Ready with
    | false => exact ⟨.waiting, by simp [inExecution, hexec]⟩
    | true => exact ⟨.ready, by simp [inExecution, hexec]⟩
  | true =>
    cases hready : x.ready with
    | true => exact ⟨.completed, by simp [inExecution, hready]⟩
    | false =>
      have hexecution : inExecution x = true := by simp [inExecution, hexec, hready]
      have htravels : travels s q = true := (hinv.travels_eq_robHolds.trans (hslot _)).trans hexecution
      rcases hinv.place_of_travels htravels with ⟨hSC, hexeq, hEX⟩ | ⟨hSC, ⟨c, hexeq⟩, hEX⟩ | ⟨hSC, hexeq, hEX⟩
      · exact ⟨.scheduled, by simp [hexecution, hSC, hexeq, hEX]⟩
      · rcases Nat.eq_zero_or_pos c.wait with hwait | hwait
        · exact ⟨.finished, by simp [hexecution, hSC, hexeq, hEX, hwait]⟩
        · exact ⟨.executing, by simp [hexecution, hSC, hexeq, hEX, hwait, hwait.ne']⟩
      · exact ⟨.executed, by simp [hexecution, hSC, hexeq, hEX]⟩

theorem Inv.exists_onlyPhase (hinv : Inv s) (hpos : 1 ≤ q) : ∃ p, OnlyPhase s q p := by
  by_cases hout : q ≤ s.retiredCount ∨ s.retiredCount + robCount s < q
  · exact hinv.onlyPhase_outside_rob hpos hout
  · obtain ⟨x, hslot⟩ := hinv.exists_robHolds_eq (q := q) (by omega) (by omega)
    exact hinv.onlyPhase_in_rob hslot

/-- Settles O51: the one state of a number is the one its interval, its slot and its copy's place decide. -/
theorem everyInstructionIsInOnePhase : Obligations.EveryInstructionIsInOnePhase := fun _ _ hinv hpos =>
  let ⟨p, hp⟩ := hinv.exists_onlyPhase hpos
  ⟨p, (hp p).mpr rfl, fun p' => (hp p').mp⟩

end Sys2Proof.Machine
end

section
/-! PROOFS. The records a latch or the EXEQ holds, as a multiset: a write to one entry takes the old entry's record out
and puts the new one's in. -/

namespace Sys2Proof.Machine

/-- One entry of a list replaced, read through a view: the old entry's view leaves and the new one's comes in. -/
theorem filterMap_set_perm {α β : Type} (f : α → Option β) (a : α) : ∀ (l : List α) (k : Nat) (hk : k < l.length),
    ((f l[k]).toList ++ (l.set k a).filterMap f).Perm ((f a).toList ++ l.filterMap f)
  | x :: l, 0, _ => by
    have hcons (y : α) : (y :: l).filterMap f = (f y).toList ++ l.filterMap f := by
      cases hy : f y <;> simp [hy]
    simp only [List.getElem_cons_zero, List.set_cons_zero, hcons]
    exact List.perm_append_comm_assoc ..
  | x :: l, k + 1, hk => by
    have hcons (m : List α) : (x :: m).filterMap f = (f x).toList ++ m.filterMap f := by
      cases hx : f x <;> simp [hx]
    have ih := (filterMap_set_perm f a l k (by simpa using hk)).append_left (f x).toList
    simp only [List.getElem_cons_succ, List.set_cons_succ, hcons]
    exact (List.perm_append_comm_assoc ..).trans (ih.trans (List.perm_append_comm_assoc ..))

/-- The record a lane holds. -/
def Lane.record (l : Lane) : Option Inst := if l.valid then some l.inst else none

/-- The record an EXEQ slot holds. -/
def ExeqSlot.record (x : ExeqSlot) : Option Inst := if x.valid then some x.inst else none

theorem Lane.record_of_valid {l : Lane} (hl : l.valid = true) : l.record = some l.inst := if_pos hl

theorem Lane.record_of_invalid {l : Lane} (hl : l.valid = false) : l.record = none := if_neg (Bool.eq_false_iff.mp hl)

theorem ExeqSlot.record_of_valid {x : ExeqSlot} (hx : x.valid = true) : x.record = some x.inst := if_pos hx

theorem ExeqSlot.record_of_invalid {x : ExeqSlot} (hx : x.valid = false) : x.record = none :=
  if_neg (Bool.eq_false_iff.mp hx)

theorem laneRecords_eq_filterMap (latch : List Lane) : laneRecords latch = latch.filterMap Lane.record := by
  simp only [laneRecords, ← List.filterMap_eq_map, ← List.filterMap_eq_filter, List.filterMap_filterMap]
  refine congrArg (List.filterMap · latch) (funext fun l => ?_)
  cases hl : l.valid <;> simp [Lane.record, hl]

theorem exeqRecords_eq_filterMap (s : State) : exeqRecords s = s.exeq.filterMap ExeqSlot.record := by
  simp only [exeqRecords, ← List.filterMap_eq_map, ← List.filterMap_eq_filter, List.filterMap_filterMap]
  refine congrArg (List.filterMap · s.exeq) (funext fun x => ?_)
  cases hx : x.valid <;> simp [ExeqSlot.record, hx]

theorem latchSeqs_eq_map (latch : List Lane) : latchSeqs latch = (laneRecords latch).map (fun c => c.seq) := by
  simp [latchSeqs, laneRecords, Function.comp_def]

theorem laneCount_eq_length (latch : List Lane) : laneCount latch = (laneRecords latch).length := by
  simp [laneCount, laneRecords, List.countP_eq_length_filter]

theorem laneRecords_of_all_invalid {latch : List Lane} (h : ∀ l ∈ latch, l.valid = false) : laneRecords latch = [] := by
  rw [laneRecords_eq_filterMap, List.filterMap_eq_nil_iff]
  exact fun l hl => Lane.record_of_invalid (h l hl)

section
variable {latch : List Lane} {k : Nat} {l : Lane}

theorem lt_length_of_lane_valid (h : (latch.getD k .empty).valid = true) : k < latch.length := by
  by_contra hk
  rw [List.getD_eq_default _ _ (by omega)] at h
  cases h

theorem lane_mem_of_valid (h : (latch.getD k .empty).valid = true) : latch.getD k .empty ∈ latch := by
  rw [List.getD_eq_getElem _ _ (lt_length_of_lane_valid h)]
  exact List.getElem_mem _

theorem inst_mem_laneRecords (h : (latch.getD k .empty).valid = true) :
    (latch.getD k .empty).inst ∈ laneRecords latch := by
  rw [laneRecords_eq_filterMap, List.mem_filterMap]
  exact ⟨_, lane_mem_of_valid h, Lane.record_of_valid h⟩

theorem laneRecords_set_invalid_perm (h : (latch.getD k .empty).valid = true) (hl : l.valid = false) :
    ((latch.getD k .empty).inst :: laneRecords (latch.set k l)).Perm (laneRecords latch) := by
  have hk := lt_length_of_lane_valid h
  have hset := filterMap_set_perm Lane.record l latch k hk
  rw [List.getD_eq_getElem _ _ hk] at h ⊢
  simpa only [laneRecords_eq_filterMap, Lane.record_of_valid h, Lane.record_of_invalid hl, Option.toList_some,
    Option.toList_none, List.cons_append, List.nil_append] using hset

theorem laneRecords_set_valid_perm (hk : k < latch.length) (h : (latch.getD k .empty).valid = false)
    (hl : l.valid = true) : (laneRecords (latch.set k l)).Perm (l.inst :: laneRecords latch) := by
  have hset := filterMap_set_perm Lane.record l latch k hk
  rw [List.getD_eq_getElem _ _ hk] at h
  simpa only [laneRecords_eq_filterMap, Lane.record_of_valid hl, Lane.record_of_invalid h, Option.toList_some,
    Option.toList_none, List.cons_append, List.nil_append] using hset

end

section
variable {s : State} {q : Nat} {x : ExeqSlot}

theorem exeqRecords_setExeq_invalid_perm (hq : q < s.exeq.length) (h : (s.exeqAt q).valid = true)
    (hx : x.valid = false) : ((s.exeqAt q).inst :: exeqRecords (s.setExeq q x)).Perm (exeqRecords s) := by
  have hset := filterMap_set_perm ExeqSlot.record x s.exeq q hq
  rw [State.exeqAt, List.getD_eq_getElem _ _ hq] at h ⊢
  simpa only [exeqRecords_eq_filterMap, ExeqSlot.record_of_valid h, ExeqSlot.record_of_invalid hx,
    Option.toList_some, Option.toList_none, List.cons_append, List.nil_append, State.setExeq_exeq] using hset

theorem exeqRecords_setExeq_valid_perm (hq : q < s.exeq.length) (h : (s.exeqAt q).valid = false)
    (hx : x.valid = true) : (exeqRecords (s.setExeq q x)).Perm (x.inst :: exeqRecords s) := by
  have hset := filterMap_set_perm ExeqSlot.record x s.exeq q hq
  rw [State.exeqAt, List.getD_eq_getElem _ _ hq] at h
  simpa only [exeqRecords_eq_filterMap, ExeqSlot.record_of_valid hx, ExeqSlot.record_of_invalid h,
    Option.toList_some, Option.toList_none, List.cons_append, List.nil_append, State.setExeq_exeq] using hset

end

end Sys2Proof.Machine
end

section
/-! PROOFS. The back end of the block between two stages of a tick: what of `Inv` the stages from Commit to Issue rely
on and keep, in two parts. `RobOk` is about which record stands in which slot and who writes which register; `ExecOk` is
about how far execution has come. -/

namespace Sys2Proof.Machine

/-! ## The travelling copies under one write -/

section
variable {s : State} {k : Nat}

theorem travellers_setSC_invalid_perm {l : Lane} (h : (s.scAt k).valid = true) (hl : l.valid = false) :
    ((s.scAt k).inst :: travellers (s.setSC k l)).Perm (travellers s) :=
  ((laneRecords_set_invalid_perm h hl).append_right _).append_right _

theorem travellers_setSC_valid_perm {l : Lane} (hk : k < s.latchSC.length) (h : (s.scAt k).valid = false)
    (hl : l.valid = true) : (travellers (s.setSC k l)).Perm (l.inst :: travellers s) :=
  ((laneRecords_set_valid_perm hk h hl).append_right _).append_right _

theorem travellers_setEX_invalid_perm {l : Lane} (h : (s.exAt k).valid = true) (hl : l.valid = false) :
    ((s.exAt k).inst :: travellers (s.setEX k l)).Perm (travellers s) :=
  List.perm_middle.symm.trans ((laneRecords_set_invalid_perm h hl).append_left _)

theorem travellers_setEX_valid_perm {l : Lane} (hk : k < s.latchEX.length) (h : (s.exAt k).valid = false)
    (hl : l.valid = true) : (travellers (s.setEX k l)).Perm (l.inst :: travellers s) :=
  ((laneRecords_set_valid_perm hk h hl).append_left _).trans List.perm_middle

theorem travellers_setExeq_invalid_perm {x : ExeqSlot} (hk : k < s.exeq.length) (h : (s.exeqAt k).valid = true)
    (hx : x.valid = false) : ((s.exeqAt k).inst :: travellers (s.setExeq k x)).Perm (travellers s) :=
  ((List.perm_middle (l₁ := laneRecords s.latchSC)).symm.trans
    ((exeqRecords_setExeq_invalid_perm hk h hx).append_left _)).append_right _

theorem travellers_setExeq_valid_perm {x : ExeqSlot} (hk : k < s.exeq.length) (h : (s.exeqAt k).valid = false)
    (hx : x.valid = true) : (travellers (s.setExeq k x)).Perm (x.inst :: travellers s) :=
  (((exeqRecords_setExeq_valid_perm hk h hx).append_left _).trans List.perm_middle).append_right _

end

/-! ## The window read by slots -/

/-- Two places of the window are two slots. -/
theorem fromHead_injective {n head j k : Nat} (hj : j < n) (hk : k < n) (h : (head + j) % n = (head + k) % n) :
    j = k := by
  have hmod : j % n = k % n := Nat.ModEq.add_left_cancel' head h
  rwa [Nat.mod_eq_of_lt hj, Nat.mod_eq_of_lt hk] at hmod

theorem lt_length_of_slot_valid {s : State} {t : Nat} (h : (s.robAt t).valid = true) : t < s.rob.length := by
  by_contra ht
  rw [State.robAt, List.getD_eq_default _ _ (by omega)] at h
  cases h

/-- Which record stands in which slot, and which register the RAT gives to which slot (R274, R277). -/
structure RobOk (s : State) : Prop where
  robLength : s.rob.length = s.cfg.robSize
  ratLength : s.rat.length = s.cfg.numArchRegs
  headLt : s.robHead < s.cfg.robSize
  window : WindowOk s
  ownTags : OwnTagsOk s
  rat : RatOk s

/-- How far execution has come (R278, R280). -/
structure ExecOk (s : State) : Prop where
  flags : FlagsOk s
  copies : ∀ c ∈ travellers s, CopyOf s c
  distinct : ((travellers s).map (fun c => c.seq)).Nodup

section
variable {s t : State}

theorem length_rat_of_wellShaped (hshape : wellShaped s = true) : s.rat.length = s.cfg.numArchRegs := by
  simp only [wellShaped, Bool.and_eq_true, beq_iff_eq] at hshape
  tauto

theorem Inv.robOk (hinv : Inv s) : RobOk s where
  robLength := length_rob_of_wellShaped hinv.shape
  ratLength := length_rat_of_wellShaped hinv.shape
  headLt := robHead_lt_of_wellShaped hinv.shape
  window := hinv.window
  ownTags := hinv.ownTags
  rat := hinv.rat

theorem Inv.execOk (hinv : Inv s) : ExecOk s :=
  let ⟨hcopies, hdistinct, _⟩ := hinv.copies
  ⟨hinv.flags, hcopies, hdistinct⟩

section
variable (hs : RobOk s)
include hs

theorem RobOk.slot_lt {u : Nat} (hu : (s.robAt u).valid = true) : u < s.cfg.robSize :=
  hs.robLength ▸ lt_length_of_slot_valid hu

theorem RobOk.robCount_le : robCount s ≤ s.cfg.robSize :=
  List.countP_le_length.trans_eq hs.robLength

theorem RobOk.valid_fromHead {k : Nat} (hk : k < s.cfg.robSize) :
    (slotFromHead s k).valid = true ↔ k < robCount s := by
  obtain ⟨-, hvalid, -⟩ := hs.window
  rw [hvalid k hk, decide_eq_true_iff]

theorem RobOk.seq_fromHead {k : Nat} (hk : k < robCount s) : (slotFromHead s k).inst.seq = s.retiredCount + 1 + k := by
  obtain ⟨-, -, hseq⟩ := hs.window
  exact hseq k (hk.trans_le hs.robCount_le) hk

/-- A slot in use is one place of the window, and its place gives its sequence number. -/
theorem RobOk.place_of_valid {u : Nat} (hu : (s.robAt u).valid = true) :
    ∃ k < robCount s, (s.robHead + k) % s.cfg.robSize = u ∧ (s.robAt u).inst.seq = s.retiredCount + 1 + k := by
  obtain ⟨k, hk, rfl⟩ := exists_fromHead hs.headLt (hs.slot_lt hu)
  have hcount := (hs.valid_fromHead hk).mp hu
  exact ⟨k, hcount, rfl, hs.seq_fromHead hcount⟩

/-- No two slots in use have one sequence number. -/
theorem RobOk.slot_injective {u v : Nat} (hu : (s.robAt u).valid = true) (hv : (s.robAt v).valid = true)
    (h : (s.robAt u).inst.seq = (s.robAt v).inst.seq) : u = v := by
  obtain ⟨j, -, rfl, hj⟩ := hs.place_of_valid hu
  obtain ⟨k, -, rfl, hk⟩ := hs.place_of_valid hv
  rw [show j = k by omega]

end

/-! ## The flags of a slot -/

/-- What `FlagsOk` says of one slot (R280, 41_rob.md R140). -/
def SlotFlagsOk (x : RobSlot) : Prop :=
  (x.valid = true → (x.ready = true → x.exec = true) ∧
    (x.exec = true → x.inst.src1Ready = true ∧ x.inst.src2Ready = true)) ∧
  (x.valid = false → x.exec = false ∧ x.ready = false)

theorem flagsOk_iff : FlagsOk s ↔ ∀ u, SlotFlagsOk (s.robAt u) := by
  constructor
  · intro h u
    by_cases hu : u < s.rob.length
    · rw [State.robAt, List.getD_eq_getElem _ _ hu]
      exact h _ (List.getElem_mem hu)
    · rw [State.robAt, List.getD_eq_default _ _ (by omega)]
      exact ⟨fun hv => (nomatch hv), fun _ => ⟨rfl, rfl⟩⟩
  · intro h x hx
    obtain ⟨u, hu, rfl⟩ := List.mem_iff_getElem.mp hx
    have hslot := h u
    rwa [State.robAt, List.getD_eq_getElem _ _ hu] at hslot

/-! ## Steps that leave the identity of every slot alone -/

/-- `t` has the slots, the RAT and the window of `s`; flags and readiness may differ. -/
structure SameRecords (s t : State) : Prop where
  cfg : t.cfg = s.cfg
  rat : t.rat = s.rat
  robHead : t.robHead = s.robHead
  robTail : t.robTail = s.robTail
  retiredCount : t.retiredCount = s.retiredCount
  robLength : t.rob.length = s.rob.length
  slot : ∀ u, (t.robAt u).valid = (s.robAt u).valid ∧ (t.robAt u).inst.seq = (s.robAt u).inst.seq ∧
    (t.robAt u).inst.dest = (s.robAt u).inst.dest ∧ (t.robAt u).inst.drTag = (s.robAt u).inst.drTag

theorem SameRecords.trans {u : State} (h : SameRecords s t) (h' : SameRecords t u) : SameRecords s u where
  cfg := h'.cfg.trans h.cfg
  rat := h'.rat.trans h.rat
  robHead := h'.robHead.trans h.robHead
  robTail := h'.robTail.trans h.robTail
  retiredCount := h'.retiredCount.trans h.retiredCount
  robLength := h'.robLength.trans h.robLength
  slot v := by
    obtain ⟨hv, hq, hd, hg⟩ := h.slot v
    obtain ⟨hv', hq', hd', hg'⟩ := h'.slot v
    exact ⟨hv'.trans hv, hq'.trans hq, hd'.trans hd, hg'.trans hg⟩

theorem SameRecords.of_rob_eq (hcfg : t.cfg = s.cfg) (hrat : t.rat = s.rat) (hrob : t.rob = s.rob)
    (hhead : t.robHead = s.robHead) (htail : t.robTail = s.robTail) (hret : t.retiredCount = s.retiredCount) :
    SameRecords s t where
  cfg := hcfg
  rat := hrat
  robHead := hhead
  robTail := htail
  retiredCount := hret
  robLength := by rw [hrob]
  slot u := by simp only [State.robAt, hrob, and_self]

theorem SameRecords.robCount (h : SameRecords s t) : robCount t = Machine.robCount s := by
  have hmap : t.rob.map (fun x => x.valid) = s.rob.map (fun x => x.valid) := by
    refine List.ext_getElem (by simp [h.robLength]) fun u hu hu' => ?_
    simp only [List.length_map] at hu hu'
    obtain ⟨hvalid, -⟩ := h.slot u
    simpa [State.robAt, hu, hu'] using hvalid
  calc Machine.robCount t = (t.rob.map (fun x => x.valid)).countP id := by
        simp [Machine.robCount, List.countP_map]
    _ = Machine.robCount s := by simp [hmap, Machine.robCount, List.countP_map]

theorem RobOk.of_sameRecords (hs : RobOk s) (h : SameRecords s t) : RobOk t where
  robLength := by rw [h.robLength, h.cfg, hs.robLength]
  ratLength := by rw [h.rat, h.cfg, hs.ratLength]
  headLt := by rw [h.robHead, h.cfg]; exact hs.headLt
  window := by
    obtain ⟨htail, hvalid, hseq⟩ := hs.window
    simp only [WindowOk, slotFromHead, h.robCount, h.cfg, h.robHead, h.robTail, h.retiredCount, (h.slot _).1,
      (h.slot _).2.1]
    exact ⟨htail, hvalid, hseq⟩
  ownTags u hu hv := by
    obtain ⟨hvalid, -, -, htag⟩ := h.slot u
    rw [htag]
    exact hs.ownTags u (h.cfg ▸ hu) (hvalid ▸ hv)
  rat := by
    have hmap (r : Nat) : t.ratAt r = s.ratAt r := by rw [State.ratAt, h.rat, State.ratAt]
    have hslot (u : Nat) : (t.robAt u).valid = (s.robAt u).valid ∧ (t.robAt u).inst.seq = (s.robAt u).inst.seq ∧
      (t.robAt u).inst.dest = (s.robAt u).inst.dest ∧ (t.robAt u).inst.drTag = (s.robAt u).inst.drTag := h.slot u
    simp only [RatOk, h.cfg, hmap, hslot]
    exact hs.rat

end

end Sys2Proof.Machine
end

section
/-! PROOFS. Commit and the back end (spec/47_commit.md): one retirement takes the head out of the window. -/

namespace Sys2Proof.Machine

/-- The decode latch as Issue meets it: it holds the sequence numbers that follow the ROB's, and its destinations are
registers of the block (R271, 30_encoding.md R100). -/
structure DecodedOk (s : State) : Prop where
  seqs : (latchSeqs s.latchID).Perm (List.range' (s.retiredCount + robCount s + 1) (laneCount s.latchID))
  dests : ∀ l ∈ s.latchID, l.valid = true → ∀ d ∈ l.inst.dest, d < s.cfg.numArchRegs

/-- What one retirement does: the head is ready and is cleared, a register mapped to it is unmapped, the window and the
count move on by one. -/
structure Retired (s t : State) : Prop where
  headValid : (s.robAt s.robHead).valid = true
  headReady : (s.robAt s.robHead).ready = true
  ratLength : t.rat.length = s.rat.length
  ratAt : ∀ r, t.ratAt r = if s.ratAt r = some s.robHead then none else s.ratAt r
  frame : t = { s with
    rat := t.rat
    rob := s.rob.set s.robHead { s.robAt s.robHead with valid := false, exec := false, ready := false }
    robHead := nextSlot s s.robHead
    retiredCount := s.retiredCount + 1
    halted := t.halted }

section
variable {s t : State}

theorem lt_length_of_ratAt {r g : Nat} (h : s.ratAt r = some g) : r < s.rat.length := by
  by_contra hr
  rw [State.ratAt, List.getD_eq_default _ _ (by omega)] at h
  cases h

/-- The RAT after the clean-up of a committed record (R237). -/
def clearedRat (x : Inst) (rat : List (Option Nat)) : List (Option Nat) :=
  match x.dest, x.drTag with
  | some d, some g => if rat.getD d none = some g then rat.set d none else rat
  | _, _ => rat

theorem clearDest_eq (x : Inst) (s : State) : clearDest x s = { s with rat := clearedRat x s.rat } := by
  cases hd : x.dest with
  | none => simp only [clearDest, clearedRat, hd]
  | some d =>
    cases hg : x.drTag with
    | none => simp only [clearDest, clearedRat, hd, hg]
    | some g =>
      simp only [clearDest, clearedRat, hd, hg]
      rcases ratReset_cases d g s with ⟨he, hr⟩ | ⟨he, hr⟩ <;> rw [State.ratAt] at he <;> rw [hr]
      · rw [if_pos he, State.setRat]
      · rw [if_neg he]

/-- Retiring writes the RAT, the count and the halt flag. -/
theorem retire_eq (x : Inst) (s : State) : retire x s =
    { s with
      rat := clearedRat x s.rat, retiredCount := s.retiredCount + 1
      halted := s.halted || s.eosSeen && decide (s.haltSeq ≤ x.seq) } := by
  simp only [retire, clearDest_eq]
  cases hhalt : s.eosSeen && decide (s.haltSeq ≤ x.seq) <;> simp

/-- The head's record clears its own mapping, if it still has one (R237). -/
theorem RobOk.getD_clearedRat (hs : RobOk s) (hvalid : (s.robAt s.robHead).valid = true) (r : Nat) :
    (clearedRat (s.robAt s.robHead).inst s.rat).getD r none =
      if s.ratAt r = some s.robHead then none else s.ratAt r := by
  have htag := hs.ownTags _ hs.headLt hvalid
  obtain ⟨hmapped, -⟩ := hs.rat
  have hdest (q : Nat) (hq : s.ratAt q = some s.robHead) : (s.robAt s.robHead).inst.dest = some q :=
    let ⟨_, hd, _⟩ := hmapped q (hs.ratLength ▸ lt_length_of_ratAt hq) _ hq
    hd
  by_cases hr : s.ratAt r = some s.robHead
  · have hset : clearedRat (s.robAt s.robHead).inst s.rat = s.rat.set r none := by
      rw [clearedRat, hdest r hr, htag]
      exact if_pos hr
    rw [hset, getD_set, if_pos ⟨rfl, lt_length_of_ratAt hr⟩, if_pos hr]
  · rw [if_neg hr]
    unfold clearedRat
    split
    next d g hd hg =>
      split
      next hdg =>
        rw [getD_set, if_neg, State.ratAt]
        rintro ⟨rfl, -⟩
        exact hr (hdg.trans (hg.symm.trans htag))
      next => rfl
    next => rfl

theorem length_clearedRat (x : Inst) (rat : List (Option Nat)) : (clearedRat x rat).length = rat.length := by
  unfold clearedRat
  split
  · split <;> simp
  · rfl

theorem RobOk.retired (hs : RobOk s) {x : Inst} {u : State} (h : robRemoveHead s = .ok x u) :
    Retired s (retire x u) := by
  obtain ⟨hvalid, hready, rfl, rfl⟩ := robRemoveHead_eq_ok h
  rw [retire_eq]
  exact ⟨hvalid, hready, length_clearedRat .., hs.getD_clearedRat hvalid, rfl⟩

section
variable (h : Retired s t)
include h

theorem Retired.cfg : t.cfg = s.cfg := by rw [h.frame]
theorem Retired.rob : t.rob =
    s.rob.set s.robHead { s.robAt s.robHead with valid := false, exec := false, ready := false } := by
  rw [h.frame]
theorem Retired.robHead : t.robHead = (s.robHead + 1) % s.cfg.robSize := by rw [h.frame]; rfl
theorem Retired.robTail : t.robTail = s.robTail := by rw [h.frame]
theorem Retired.retiredCount : t.retiredCount = s.retiredCount + 1 := by rw [h.frame]
theorem Retired.exeq : t.exeq = s.exeq := by rw [h.frame]
theorem Retired.latchSC : t.latchSC = s.latchSC := by rw [h.frame]
theorem Retired.latchEX : t.latchEX = s.latchEX := by rw [h.frame]
theorem Retired.latchID : t.latchID = s.latchID := by rw [h.frame]

theorem Retired.robAt (u : Nat) : t.robAt u =
    if u = s.robHead then { s.robAt u with valid := false, exec := false, ready := false } else s.robAt u := by
  rw [State.robAt, h.rob, getD_set]
  by_cases hu : u = s.robHead
  · rw [if_pos hu, if_pos ⟨hu, lt_length_of_slot_valid h.headValid⟩, hu]
  · rw [if_neg hu, if_neg fun hand => hu hand.1, State.robAt]

theorem Retired.robAt_of_valid {u : Nat} (hu : (t.robAt u).valid = true) : u ≠ s.robHead ∧ t.robAt u = s.robAt u := by
  rw [h.robAt] at hu ⊢
  split at hu
  next => cases hu
  next hne => exact ⟨hne, if_neg hne⟩

theorem Retired.robCount : robCount s = robCount t + 1 := by
  have hlt := lt_length_of_slot_valid h.headValid
  have hvalid := h.headValid
  rw [State.robAt, List.getD_eq_getElem _ _ hlt] at hvalid
  have hpos : 0 < s.rob.countP (fun x => x.valid) := List.countP_pos_iff.mpr ⟨_, List.getElem_mem hlt, hvalid⟩
  have hcount := List.countP_set (p := fun x : RobSlot => x.valid) (l := s.rob)
    (a := { s.robAt s.robHead with valid := false, exec := false, ready := false }) hlt
  rw [Machine.robCount, Machine.robCount, h.rob, hcount, hvalid]
  simp only [if_true, Bool.false_eq_true, if_false]
  omega

theorem Retired.slotFromHead (hs : RobOk s) {k : Nat} (hk : k + 1 < s.cfg.robSize) :
    slotFromHead t k = slotFromHead s (k + 1) := by
  have hindex : ((s.robHead + 1) % s.cfg.robSize + k) % s.cfg.robSize = (s.robHead + (k + 1)) % s.cfg.robSize := by
    rw [Nat.mod_add_mod, Nat.add_assoc, Nat.add_comm 1 k]
  have hzero : (s.robHead + 0) % s.cfg.robSize = s.robHead := Nat.mod_eq_of_lt hs.headLt
  have hne : (s.robHead + (k + 1)) % s.cfg.robSize ≠ s.robHead := fun he =>
    Nat.succ_ne_zero k (fromHead_injective hk s.cfg.one_le_robSize (he.trans hzero.symm))
  rw [Machine.slotFromHead, h.cfg, h.robHead, hindex, h.robAt, if_neg hne, Machine.slotFromHead]

theorem Retired.slotFromHead_last (hs : RobOk s) {k : Nat} (hk : k + 1 = s.cfg.robSize) :
    (Machine.slotFromHead t k).valid = false := by
  have hindex : ((s.robHead + 1) % s.cfg.robSize + k) % s.cfg.robSize = s.robHead := by
    rw [Nat.mod_add_mod, Nat.add_assoc, Nat.add_comm 1 k, hk, Nat.add_mod_right, Nat.mod_eq_of_lt hs.headLt]
  rw [Machine.slotFromHead, h.cfg, h.robHead, hindex, h.robAt, if_pos rfl]

theorem Retired.windowOk (hs : RobOk s) : WindowOk t := by
  obtain ⟨htail, -, -⟩ := hs.window
  have hcount := h.robCount
  have hle := hs.robCount_le
  have hplace {k : Nat} (hk : k + 1 < s.cfg.robSize) := h.slotFromHead hs hk
  refine ⟨?_, fun k hk => ?_, fun k hk hkc => ?_⟩
  · rw [h.robTail, htail, h.cfg, h.robHead, hcount, Nat.mod_add_mod, Nat.add_assoc, Nat.add_comm 1]
  · rw [h.cfg] at hk
    by_cases hlast : k + 1 = s.cfg.robSize
    · rw [h.slotFromHead_last hs hlast, eq_comm, decide_eq_false_iff_not]
      omega
    · rw [hplace (by omega), Bool.eq_iff_iff, hs.valid_fromHead (by omega), decide_eq_true_iff]
      omega
  · rw [hplace (by omega), hs.seq_fromHead (by omega), h.retiredCount]
    omega

/-- The retired record was the oldest writer of anything: a register still mapped to it has no writer left. -/
theorem Retired.ratOk (hs : RobOk s) : RatOk t := by
  obtain ⟨hmapped, hwriter⟩ := hs.rat
  constructor
  · intro r hr g hg
    rw [h.cfg] at hr
    rw [Option.mem_def, h.ratAt] at hg
    split at hg
    next => cases hg
    next hne =>
      obtain ⟨hv, hd, htag, hyoungest⟩ := hmapped r hr g hg
      have hslot : t.robAt g = s.robAt g := by
        rw [h.robAt, if_neg]
        rintro rfl
        exact hne hg
      rw [hslot]
      refine ⟨hv, hd, htag, fun u hu huv hud => ?_⟩
      obtain ⟨-, hsame⟩ := h.robAt_of_valid huv
      rw [hsame] at huv hud ⊢
      exact hyoungest u (h.cfg ▸ hu) huv hud
  · intro u hu huv r hr
    obtain ⟨hne, hsame⟩ := h.robAt_of_valid huv
    rw [hsame] at huv hr
    have hold := hwriter u (h.cfg ▸ hu) huv r hr
    rw [h.ratAt, if_neg]
    · exact hold
    · intro hhead
      obtain ⟨-, -, -, hyoungest⟩ := hmapped r (hs.ratLength ▸ lt_length_of_ratAt hhead) _ hhead
      have hle := hyoungest u (h.cfg ▸ hu) huv hr
      have hfirst : (s.robAt s.robHead).inst.seq = s.retiredCount + 1 + 0 := by
        have hzero := hs.seq_fromHead (k := 0) (by rw [h.robCount]; omega)
        rwa [Machine.slotFromHead, Nat.add_zero, Nat.mod_eq_of_lt hs.headLt] at hzero
      obtain ⟨k, -, rfl, hseq⟩ := hs.place_of_valid huv
      obtain rfl : k = 0 := by omega
      exact hne (Nat.mod_eq_of_lt hs.headLt)

theorem Retired.robOk (hs : RobOk s) : RobOk t where
  robLength := by rw [h.rob, List.length_set, hs.robLength, h.cfg]
  ratLength := by rw [h.ratLength, hs.ratLength, h.cfg]
  headLt := by rw [h.robHead, h.cfg]; exact Nat.mod_lt _ s.cfg.one_le_robSize
  window := h.windowOk hs
  ownTags u hu hv := by
    obtain ⟨-, hsame⟩ := h.robAt_of_valid hv
    rw [hsame] at hv ⊢
    exact hs.ownTags u (h.cfg ▸ hu) hv
  rat := h.ratOk hs

theorem Retired.travellers : travellers t = travellers s := by
  simp only [Machine.travellers, exeqRecords, h.exeq, h.latchSC, h.latchEX]

/-- A travelling copy's slot is not ready, so it is not the one retired. -/
theorem Retired.execOk (hs : ExecOk s) : ExecOk t where
  flags := by
    rw [flagsOk_iff]
    intro u
    rw [h.robAt]
    split
    next => exact ⟨fun hv => (nomatch hv), fun _ => ⟨rfl, rfl⟩⟩
    next => exact flagsOk_iff.mp hs.flags u
  copies c hc := by
    rw [h.travellers] at hc
    obtain ⟨u, hu, htag, hcopy⟩ := hs.copies c hc
    have hne : u ≠ s.robHead := by
      rintro rfl
      obtain ⟨-, -, hready, -⟩ := hcopy
      exact Bool.false_ne_true (hready.symm.trans h.headReady)
    refine ⟨u, by rwa [h.cfg], htag, ?_⟩
    rw [h.robAt, if_neg hne]
    exact hcopy
  distinct := by rw [h.travellers]; exact hs.distinct

theorem Retired.decodedOk (hs : DecodedOk s) : DecodedOk t where
  seqs := by
    have hseqs := hs.seqs
    rw [h.robCount, show s.retiredCount + (Machine.robCount t + 1) + 1 = s.retiredCount + 1 + Machine.robCount t + 1 by
      omega] at hseqs
    rwa [h.latchID, h.retiredCount]
  dests := by
    rw [h.latchID, h.cfg]
    exact hs.dests

theorem Retired.inOrderPrefix (hs : RobOk s) (hprefix : InOrderPrefix s) : InOrderPrefix t := by
  intro hpolicy j hj k hk hexec
  have hcount := h.robCount
  have hle := hs.robCount_le
  rw [h.slotFromHead hs (by omega)] at hexec ⊢
  exact hprefix (h.cfg ▸ hpolicy) (j + 1) (by omega) (k + 1) (by omega) hexec

end

/-- Commit keeps what each retirement keeps. -/
theorem commit_keeps {P : State → Prop} (hrob : ∀ u, P u → RobOk u) (hP : ∀ u v, Retired u v → P u → P v)
    (hs : P s) (h : commit s = .ok () t) : P t :=
  commitUpTo_keeps (fun u _ _ hu _ hx => hP u _ ((hrob u hu).retired hx) hu) _ s t hs h

end

end Sys2Proof.Machine
end

section
/-! PROOFS. Writeback and Execute and the back end (spec/46_execute_writeback.md): Writeback takes copies out and makes
their slots ready; Execute moves copies and touches no slot. -/

namespace Sys2Proof.Machine

/-- The latches on either side of Execute have the configured widths (10_state.md R42). -/
structure WidthsOk (s : State) : Prop where
  latchSC : s.latchSC.length = s.cfg.pipeWidth
  latchEX : s.latchEX.length = s.cfg.wbWidth

/-- What the stages from Commit to Issue rely on and keep. -/
structure BackendOk (s : State) : Prop where
  widths : WidthsOk s
  rob : RobOk s
  exec : ExecOk s
  decoded : DecodedOk s

section
variable {s t : State}

theorem widthsOk_of_wellShaped (hshape : wellShaped s = true) : WidthsOk s := by
  simp only [wellShaped, latchInRange, Bool.and_eq_true, beq_iff_eq] at hshape
  obtain ⟨⟨-, hSC, -⟩, hEX, -⟩ := hshape
  exact ⟨hSC, hEX⟩

theorem Retired.backendOk (h : Retired s t) (hs : BackendOk s) : BackendOk t :=
  ⟨⟨by rw [h.latchSC, h.cfg, hs.widths.latchSC], by rw [h.latchEX, h.cfg, hs.widths.latchEX]⟩,
    h.robOk hs.rob, h.execOk hs.exec, h.decodedOk hs.decoded⟩

theorem DecodedOk.of_sameRecords (hs : DecodedOk s) (h : SameRecords s t) (hID : t.latchID = s.latchID) :
    DecodedOk t where
  seqs := by rw [hID, h.retiredCount, h.robCount]; exact hs.seqs
  dests := by rw [hID, h.cfg]; exact hs.dests

theorem InOrderPrefix.of_sameRecords (hs : InOrderPrefix s) (h : SameRecords s t)
    (hexec : ∀ u, (t.robAt u).exec = (s.robAt u).exec) : InOrderPrefix t := by
  simp only [InOrderPrefix, slotFromHead, h.cfg, h.robCount, h.robHead, hexec]
  exact hs

/-! ## A loop over lanes, by the number of lanes done -/

/-- What each lane's step takes from one count of lanes done to the next, the loop takes from 0 to all of them. -/
theorem forLanes_range_keeps {P : Nat → State → Prop} {f : Nat → State → Res Unit} {n : Nat}
    (hf : ∀ k u v, k < n → P k u → f k u = .ok () v → P (k + 1) v) (hs : P 0 s)
    (h : forLanes f (List.range n) s = .ok () t) : P n t := by
  have hloop (m k : Nat) (hk : k + m = n) : ∀ u, P k u → forLanes f (List.range' k m) u = .ok () t → P n t := by
    induction m generalizing k with
    | zero => intro u hu hrun; cases hrun; exact hk ▸ hu
    | succ m ih =>
      intro u hu hrun
      obtain ⟨_, v, hv, hrest⟩ := Res.bind_eq_ok.mp hrun
      exact ih (k + 1) (by omega) v (hf k u v (by omega) hu hv) hrest
  rw [List.range_eq_range'] at h
  exact hloop n 0 (Nat.zero_add n) s hs h

/-! ## Writeback -/

/-- One execute-latch lane written back: slot `g` is ready, `g` is broadcast, the lane is empty (R226). -/
structure WrittenBack (s t : State) (k g : Nat) : Prop where
  laneValid : (s.exAt k).valid = true
  tag : (s.exAt k).inst.drTag = some g
  frame : t = { s with rob := t.rob, latchEX := s.latchEX.set k { s.exAt k with valid := false } }
  robLength : t.rob.length = s.rob.length
  robAt : ∀ u, t.robAt u = wakeSlot g (if u = g then { s.robAt u with ready := true } else s.robAt u)

/-- A broadcast only sets source-ready flags. -/
theorem SlotFlagsOk.wakeSlot {x : RobSlot} (g : Nat) (hx : SlotFlagsOk x) : SlotFlagsOk (wakeSlot g x) := by
  cases hv : x.valid with
  | false => rwa [Machine.wakeSlot, hv]
  | true =>
    obtain ⟨hlive, -⟩ := hx
    obtain ⟨hready, hexec⟩ := hlive hv
    rw [Machine.wakeSlot, hv]
    exact ⟨fun _ => ⟨hready, fun he => let ⟨h1, h2⟩ := hexec he; ⟨by simp [h1], by simp [h2]⟩⟩, fun h => nomatch h⟩

theorem writebackLane_cases {k : Nat} (h : writebackLane k s = .ok () t) :
    ((s.exAt k).valid = false ∧ t = s) ∨ ∃ g, WrittenBack s t k g := by
  rcases writebackLane_eq_ok h with hidle | ⟨g, hlane, htag, hslot, rfl⟩
  · exact .inl hidle
  · refine .inr ⟨g, hlane, htag, rfl, by simp [robWakeup], fun u => ?_⟩
    rw [State.robAt_setEX, robWakeup_robAt, State.robAt_setRob]
    by_cases hu : u = g
    · rw [if_pos ⟨hu, lt_length_of_slot_valid hslot⟩, if_pos hu, hu]
    · rw [if_neg fun hand => hu hand.1, if_neg hu]

section
variable {k g : Nat} (h : WrittenBack s t k g)
include h

theorem WrittenBack.slot (u : Nat) :
    (t.robAt u).valid = (s.robAt u).valid ∧ (t.robAt u).exec = (s.robAt u).exec ∧
      (u ≠ g → (t.robAt u).ready = (s.robAt u).ready) ∧ (t.robAt u).inst.seq = (s.robAt u).inst.seq ∧
      (t.robAt u).inst.op = (s.robAt u).inst.op ∧ (t.robAt u).inst.dest = (s.robAt u).inst.dest ∧
      (t.robAt u).inst.drTag = (s.robAt u).inst.drTag := by
  rw [h.robAt]
  obtain ⟨hv, he, hr, hq, ho, hd, -, -, -, -, hg, -⟩ :=
    wakeSlot_fields g (if u = g then { s.robAt u with ready := true } else s.robAt u)
  rw [hv, he, hr, hq, ho, hd, hg]
  split
  next hu => exact ⟨rfl, rfl, fun hne => absurd hu hne, rfl, rfl, rfl, rfl⟩
  next => exact ⟨rfl, rfl, fun _ => rfl, rfl, rfl, rfl, rfl⟩

theorem WrittenBack.sameRecords : SameRecords s t where
  cfg := by rw [h.frame]
  rat := by rw [h.frame]
  robHead := by rw [h.frame]
  robTail := by rw [h.frame]
  retiredCount := by rw [h.frame]
  robLength := h.robLength
  slot u :=
    let ⟨hv, _, _, hq, _, hd, hg⟩ := h.slot u
    ⟨hv, hq, hd, hg⟩

theorem WrittenBack.exec_eq (u : Nat) : (t.robAt u).exec = (s.robAt u).exec :=
  let ⟨_, he, _⟩ := h.slot u
  he

theorem WrittenBack.travellers_perm : ((s.exAt k).inst :: travellers t).Perm (travellers s) := by
  have hsame : travellers t = travellers (s.setEX k { s.exAt k with valid := false }) := by rw [h.frame]; rfl
  rw [hsame]
  exact travellers_setEX_invalid_perm h.laneValid rfl

/-- The record written back belongs to an executing slot, and no other copy has its number. -/
theorem WrittenBack.execOk (hs : ExecOk s) : ExecOk t := by
  have hperm := h.travellers_perm
  obtain ⟨v, -, hvg, -, hexec, -, hseq, -⟩ := hs.copies _ (hperm.subset List.mem_cons_self)
  obtain rfl : v = g := Option.some.inj (hvg.symm.trans h.tag)
  have hdistinct := (hperm.map (fun c => c.seq)).nodup_iff.mpr hs.distinct
  rw [List.map_cons, List.nodup_cons] at hdistinct
  obtain ⟨hnew, hdistinct⟩ := hdistinct
  refine ⟨flagsOk_iff.mpr fun u => ?_, fun c hc => ?_, hdistinct⟩
  · obtain ⟨hlive, hdead⟩ := flagsOk_iff.mp hs.flags u
    rw [h.robAt]
    refine SlotFlagsOk.wakeSlot _ ?_
    split
    next hu =>
      subst hu
      refine ⟨fun hv => ⟨fun _ => hexec, (hlive hv).2⟩, fun hv => absurd hexec ?_⟩
      rw [(hdead hv).1]
      exact Bool.false_ne_true
    next => exact ⟨hlive, hdead⟩
  · obtain ⟨u, hu, htag, hvalid, hexec', hready, hcseq, hop⟩ := hs.copies c (hperm.subset (List.mem_cons_of_mem _ hc))
    have hne : u ≠ v := by
      rintro rfl
      exact hnew (List.mem_map.mpr ⟨c, hc, hcseq.symm.trans hseq⟩)
    obtain ⟨hv, he, hr, hq, ho, -, -⟩ := h.slot u
    exact ⟨u, by rwa [h.sameRecords.cfg], htag, hv.trans hvalid, he.trans hexec', (hr hne).trans hready, hq.trans hcseq,
      ho.trans hop⟩

theorem WrittenBack.widthsOk (hs : WidthsOk s) : WidthsOk t := by
  rw [h.frame]
  exact ⟨hs.latchSC, List.length_set.trans hs.latchEX⟩

theorem WrittenBack.backendOk (hs : BackendOk s) : BackendOk t :=
  ⟨h.widthsOk hs.widths, hs.rob.of_sameRecords h.sameRecords, h.execOk hs.exec,
    hs.decoded.of_sameRecords h.sameRecords (by rw [h.frame])⟩

end

/-- Writeback keeps what each lane keeps. -/
theorem writeback_keeps {P : State → Prop} (hP : ∀ u v k g, WrittenBack u v k g → P u → P v) (hs : P s)
    (h : writeback s = .ok () t) : P t := by
  refine forLanes_keeps (fun k u v hu hv => ?_) _ s t hs h
  rcases writebackLane_cases hv with ⟨-, rfl⟩ | ⟨g, hg⟩
  · exact hu
  · exact hP u v k g hg hu

/-! ## Execute -/

/-- A record but for the countdown, which is counted in the EXEQ's copy alone (10_state.md R28). -/
def Inst.uncounted (x : Inst) : Inst := { x with wait := 0 }

/-- The travelling copies but for their countdowns. -/
def uncountedTravellers (s : State) : List Inst := (travellers s).map Inst.uncounted

/-- What Execute's parts have in common: they write the EXEQ and the two latches around it, and every copy stays
(R220). -/
structure Carried (s t : State) : Prop where
  frame : t = { s with exeq := t.exeq, latchSC := t.latchSC, latchEX := t.latchEX }
  lengthSC : t.latchSC.length = s.latchSC.length
  lengthEX : t.latchEX.length = s.latchEX.length
  copies : (uncountedTravellers t).Perm (uncountedTravellers s)

theorem Carried.refl (s : State) : Carried s s := ⟨rfl, rfl, rfl, .refl _⟩

theorem Carried.trans {u : State} (h : Carried s t) (h' : Carried t u) : Carried s u where
  frame := by rw [h'.frame, h.frame]
  lengthSC := h'.lengthSC.trans h.lengthSC
  lengthEX := h'.lengthEX.trans h.lengthEX
  copies := h'.copies.trans h.copies

/-- A single-cycle record on its way to the execute latch. -/
theorem carried_bypassLane {i : Nat} (h : bypassLane i s = .ok () t) : Carried s t := by
  rcases bypassLane_eq_ok h with rfl | ⟨k, hlane, -, hk, rfl⟩
  · exact .refl _
  · obtain ⟨hlt, hfree, -⟩ := List.findIdx?_eq_some_iff_getElem.mp hk
    have hempty : (s.exAt k).valid = false := by
      rw [State.exAt, List.getD_eq_getElem _ _ hlt]
      simpa using hfree
    have hput : (travellers (putEX k (s.scAt i).inst s)).Perm ((s.scAt i).inst :: travellers s) :=
      travellers_setEX_valid_perm hlt hempty rfl
    have htake : ((s.scAt i).inst :: travellers (emptySC i (putEX k (s.scAt i).inst s))).Perm
        (travellers (putEX k (s.scAt i).inst s)) :=
      travellers_setSC_invalid_perm (s := putEX k (s.scAt i).inst s) hlane rfl
    exact ⟨rfl, List.length_set, List.length_set, ((htake.trans hput).cons_inv).map _⟩

/-- A multi-cycle record on its way into the EXEQ takes its countdown. -/
theorem carried_enqueueLane {i : Nat} (h : enqueueLane i s = .ok () t) : Carried s t := by
  rcases enqueueLane_eq_ok h with rfl | ⟨q, hlane, -, hq, hfree, -, rfl⟩
  · exact .refl _
  · have hput := (travellers_setExeq_valid_perm (x := { valid := true, inst := { (s.scAt i).inst with
      wait := lat s.cfg (s.scAt i).inst.op } }) hq hfree rfl).map Inst.uncounted
    have htake := (travellers_setSC_invalid_perm (s := s.setExeq q { valid := true, inst := { (s.scAt i).inst with
      wait := lat s.cfg (s.scAt i).inst.op } }) (k := i) (l := { s.scAt i with valid := false }) hlane
      rfl).map Inst.uncounted
    exact ⟨rfl, List.length_set, rfl, (htake.trans hput).cons_inv⟩

theorem carried_exeqCycle (s : State) : Carried s (exeqCycle s) := by
  refine ⟨rfl, rfl, rfl, ?_⟩
  have hqueue : (exeqRecords (exeqCycle s)).map Inst.uncounted = (exeqRecords s).map Inst.uncounted := by
    simp only [exeqRecords_eq_filterMap, exeqCycle, List.filterMap_map, List.map_filterMap]
    refine congrArg (List.filterMap · s.exeq) (funext fun x => ?_)
    cases hx : x.valid <;> simp [ExeqSlot.record, ageSlot, hx, Inst.uncounted]
  have hSC : (exeqCycle s).latchSC = s.latchSC := rfl
  have hEX : (exeqCycle s).latchEX = s.latchEX := rfl
  rw [uncountedTravellers, uncountedTravellers, travellers, travellers, hSC, hEX, List.map_append, List.map_append,
    List.map_append, List.map_append, hqueue]

/-- The oldest finished record leaves its slot (R157). -/
theorem exeqRemoveFinished_eq_some {x : Inst} (h : exeqRemoveFinished s = some (x, t)) :
    ∃ q < s.exeq.length, (s.exeqAt q).valid = true ∧ x = (s.exeqAt q).inst ∧
      t = s.setExeq q { s.exeqAt q with valid := false } := by
  unfold exeqRemoveFinished at h
  split at h
  · cases h
  · rename_i q hq
    cases h
    obtain ⟨a, hkey, -⟩ := oldest_eq_some hq
    rw [List.getElem?_map, Option.map_eq_some_iff] at hkey
    obtain ⟨y, hy, hkey⟩ := hkey
    obtain ⟨hlt, rfl⟩ := List.getElem?_eq_some_iff.mp hy
    refine ⟨q, hlt, ?_, rfl, rfl⟩
    rw [State.exeqAt, List.getD_eq_getElem _ _ hlt]
    split at hkey
    next hfinished =>
      simp only [ExeqSlot.finished, Bool.and_eq_true] at hfinished
      exact hfinished.1
    next => cases hkey

theorem carried_drainUpTo (n : Nat) (s : State) : Carried s (drainUpTo n s) := by
  refine drainUpTo_keeps (fun u k x v hu hk hx => hu.trans ?_) n s (.refl s)
  obtain ⟨q, hq, hvalid, rfl, rfl⟩ := exeqRemoveFinished_eq_some hx
  obtain ⟨hlt, hfree, -⟩ := List.findIdx?_eq_some_iff_getElem.mp hk
  have hempty : (u.exAt k).valid = false := by
    rw [State.exAt, List.getD_eq_getElem _ _ hlt]
    simpa using hfree
  have htake := travellers_setExeq_invalid_perm (x := { u.exeqAt q with valid := false }) hq hvalid rfl
  have hput : (travellers (putEX k (u.exeqAt q).inst (u.setExeq q { u.exeqAt q with valid := false }))).Perm
      ((u.exeqAt q).inst :: travellers (u.setExeq q { u.exeqAt q with valid := false })) :=
    travellers_setEX_valid_perm (s := u.setExeq q { u.exeqAt q with valid := false }) hlt hempty rfl
  exact ⟨rfl, rfl, List.length_set, (hput.trans htake).map _⟩

/-- Execute's three parts (R220). -/
theorem execute_eq_ok (h : execute s = .ok () t) : ∃ u v,
    forLanes bypassLane (List.range s.cfg.pipeWidth) s = .ok () u ∧
    forLanes enqueueLane (List.range s.cfg.pipeWidth) u = .ok () v ∧
    t = drainUpTo v.latchEX.length (exeqCycle v) := by
  obtain ⟨_, u, hu, h⟩ := Res.bind_eq_ok.mp h
  obtain ⟨_, v, hv, h⟩ := Res.bind_eq_ok.mp h
  cases h
  exact ⟨u, v, hu, hv, rfl⟩

theorem carried_execute (h : execute s = .ok () t) : Carried s t := by
  obtain ⟨u, v, hu, hv, rfl⟩ := execute_eq_ok h
  have hbypass : Carried s u := forLanes_keeps (P := Carried s) (fun _ _ _ hP hk => hP.trans (carried_bypassLane hk))
    _ s u (.refl s) hu
  have henqueue : Carried s v := forLanes_keeps (P := Carried s) (fun _ _ _ hP hk => hP.trans (carried_enqueueLane hk))
    _ u v hbypass hv
  exact (henqueue.trans (carried_exeqCycle v)).trans (carried_drainUpTo _ _)

section
variable (h : Carried s t)
include h

theorem Carried.rob : t.rob = s.rob := by rw [h.frame]

theorem Carried.sameRecords : SameRecords s t :=
  .of_rob_eq (by rw [h.frame]) (by rw [h.frame]) h.rob (by rw [h.frame]) (by rw [h.frame]) (by rw [h.frame])

theorem Carried.exec_eq (u : Nat) : (t.robAt u).exec = (s.robAt u).exec := by rw [State.robAt, h.rob, State.robAt]

/-- The invariant on the copies does not look at their countdowns. -/
theorem Carried.execOk (hs : ExecOk s) : ExecOk t where
  flags := by rw [FlagsOk, h.rob]; exact hs.flags
  copies c hc := by
    obtain ⟨d, hd, hdc⟩ := List.mem_map.mp (h.copies.subset (List.mem_map_of_mem (f := Inst.uncounted) hc))
    have hcopy : CopyOf s d.uncounted := hs.copies d hd
    rw [hdc] at hcopy
    simp only [CopyOf, State.robAt, h.rob, h.sameRecords.cfg]
    exact hcopy
  distinct := by
    have hseqs := h.copies.map (fun c => c.seq)
    simp only [uncountedTravellers, List.map_map] at hseqs
    exact hseqs.nodup_iff.mpr hs.distinct

theorem Carried.widthsOk (hs : WidthsOk s) : WidthsOk t :=
  ⟨by rw [h.lengthSC, hs.latchSC, h.sameRecords.cfg], by rw [h.lengthEX, hs.latchEX, h.sameRecords.cfg]⟩

theorem Carried.backendOk (hs : BackendOk s) : BackendOk t :=
  ⟨h.widthsOk hs.widths, hs.rob.of_sameRecords h.sameRecords, h.execOk hs.exec,
    hs.decoded.of_sameRecords h.sameRecords (by rw [h.frame])⟩

end

end

end Sys2Proof.Machine
end

section
/-! PROOFS. Schedule (spec/45_schedule.md): one lane takes one slot, and what a tick's lanes have taken together. -/

namespace Sys2Proof.Machine

section
variable {s t : State}

/-- Schedule lane `i` is free and takes slot `g`, which the policy selects (R201, R207). -/
structure Scheduled (s t : State) (i g : Nat) : Prop where
  laneFree : (s.scAt i).valid = false
  selected : select s = some g
  frame : t = { s with
    rob := s.rob.set g { s.robAt g with exec := true }
    latchSC := s.latchSC.set i { s.scAt i with valid := true, inst := (s.robAt g).inst } }

/-- A schedule lane takes the selected slot, or it is full or nothing is selected. -/
theorem scheduleLane_cases {i : Nat} (h : scheduleLane i s = .ok () t) :
    (t = s ∧ ((s.scAt i).valid = true ∨ select s = none)) ∨ ∃ g, Scheduled s t i g := by
  unfold scheduleLane at h
  split at h
  next hfull => cases h; exact .inl ⟨rfl, .inl hfull⟩
  next hfree =>
    split at h
    next hnone => cases h; exact .inl ⟨rfl, .inr hnone⟩
    next g hg =>
      obtain ⟨_, u, hu, hk⟩ := Res.bind_eq_ok.mp h
      obtain ⟨hcand, rfl⟩ := robMarkExecuting_eq_ok hu
      cases hk
      simp only [candidate, Bool.and_eq_true] at hcand
      obtain ⟨hvalid, -⟩ := hcand
      have hinst : ((s.setRob g { s.robAt g with exec := true }).robAt g).inst = (s.robAt g).inst := by
        rw [State.robAt_setRob, if_pos ⟨rfl, lt_length_of_slot_valid hvalid⟩]
      exact .inr ⟨g, by simpa using hfree, hg, by rw [hinst]; rfl⟩

section
variable {i g : Nat} (h : Scheduled s t i g)
include h

theorem Scheduled.candidate :
    (s.robAt g).valid = true ∧ (s.robAt g).exec = false ∧ (s.robAt g).inst.src1Ready = true ∧
      (s.robAt g).inst.src2Ready = true := by
  obtain ⟨-, hcand, hready⟩ := select_eq_some h.selected
  simp only [Machine.candidate, operandsReady, Bool.and_eq_true, Bool.not_eq_true'] at hcand hready
  exact ⟨hcand.1, hcand.2, hready.1, hready.2⟩

theorem Scheduled.robAt (u : Nat) :
    t.robAt u = if u = g then { s.robAt u with exec := true } else s.robAt u := by
  obtain ⟨hvalid, -⟩ := h.candidate
  rw [State.robAt, h.frame, getD_set]
  by_cases hu : u = g
  · rw [if_pos ⟨hu, lt_length_of_slot_valid hvalid⟩, if_pos hu, hu]
  · rw [if_neg fun hand => hu hand.1, if_neg hu, State.robAt]

theorem Scheduled.scAt (hi : i < s.latchSC.length) (j : Nat) :
    t.scAt j = if j = i then { s.scAt j with valid := true, inst := (s.robAt g).inst } else s.scAt j := by
  rw [State.scAt, h.frame, getD_set]
  by_cases hj : j = i
  · rw [if_pos ⟨hj, hi⟩, if_pos hj, hj]
  · rw [if_neg fun hand => hj hand.1, if_neg hj, State.scAt]

theorem Scheduled.exec_of_exec {u : Nat} (hu : (s.robAt u).exec = true) : (t.robAt u).exec = true := by
  rw [h.robAt]
  split
  next => rfl
  next => exact hu

theorem Scheduled.countP_exec : t.rob.countP (fun x => x.exec) = s.rob.countP (fun x => x.exec) + 1 := by
  obtain ⟨hvalid, hexec, -⟩ := h.candidate
  have hlt := lt_length_of_slot_valid hvalid
  rw [State.robAt, List.getD_eq_getElem _ _ hlt] at hexec
  have hrob : t.rob = s.rob.set g { s.robAt g with exec := true } := by rw [h.frame]
  rw [hrob, List.countP_set hlt, hexec]
  simp

theorem Scheduled.laneCount (hi : i < s.latchSC.length) : laneCount t.latchSC = laneCount s.latchSC + 1 := by
  have hperm := laneRecords_set_valid_perm (l := { s.scAt i with valid := true, inst := (s.robAt g).inst }) hi
    h.laneFree rfl
  have hSC : t.latchSC = s.latchSC.set i { s.scAt i with valid := true, inst := (s.robAt g).inst } := by rw [h.frame]
  rw [laneCount_eq_length, laneCount_eq_length, hSC, hperm.length_eq, List.length_cons]

theorem Scheduled.latchSC_length : t.latchSC.length = s.latchSC.length := by
  rw [h.frame]
  exact List.length_set

end

/-! ## What the lanes of one tick have done -/

/-- What Schedule has done to `s` when `n` lanes are done: which slots and lanes it has written and why, how many, what
the first free lane took, and that it passes a free lane only when nothing is selected (R201, R283). -/
structure ScheduledUpTo (s : State) (n : Nat) (t : State) : Prop where
  frame : t = { s with rob := t.rob, latchSC := t.latchSC }
  length : t.latchSC.length = s.latchSC.length
  slot : ∀ u, t.robAt u = s.robAt u ∨
    ((s.robAt u).valid = true ∧ (s.robAt u).exec = false ∧ (s.robAt u).inst.src1Ready = true ∧
      (s.robAt u).inst.src2Ready = true ∧ t.robAt u = { s.robAt u with exec := true } ∧
      ∃ i < n, t.scAt i = { s.scAt i with valid := true, inst := (s.robAt u).inst })
  lane : ∀ i, t.scAt i = s.scAt i ∨
    (i < n ∧ (s.scAt i).valid = false ∧ ∃ u, (s.robAt u).exec = false ∧ (t.robAt u).exec = true ∧
      t.scAt i = { s.scAt i with valid := true, inst := (s.robAt u).inst })
  bound : t.rob.countP (fun x => x.exec) ≤ s.rob.countP (fun x => x.exec) + n
  count : laneCount t.latchSC + s.rob.countP (fun x => x.exec) = laneCount s.latchSC + t.rob.countP (fun x => x.exec)
  untouched : (∀ i < n, (s.scAt i).valid = true) → t = s
  first : ∀ i g, i < n → (s.scAt i).valid = false → (∀ j < i, (s.scAt j).valid = true) → select s = some g →
    t.scAt i = { s.scAt i with valid := true, inst := (s.robAt g).inst } ∧ (t.robAt g).exec = true
  stop : select t = none ∨ ∀ i < n, (t.scAt i).valid = true

theorem ScheduledUpTo.zero (s : State) : ScheduledUpTo s 0 s where
  frame := rfl
  length := rfl
  slot _ := .inl rfl
  lane _ := .inl rfl
  bound := Nat.le_refl _
  count := rfl
  untouched _ := rfl
  first _ _ h := absurd h (Nat.not_lt_zero _)
  stop := .inr fun _ h => absurd h (Nat.not_lt_zero _)

section
variable {n : Nat} {u : State} (h : ScheduledUpTo s n t)
include h

/-- The next lane is full, or nothing is selected: nothing happens. -/
theorem ScheduledUpTo.idle (hidle : (t.scAt n).valid = true ∨ select t = none) : ScheduledUpTo s (n + 1) t where
  frame := h.frame
  length := h.length
  slot v := (h.slot v).imp_right fun ⟨hv, he, h1, h2, hslot, i, hi, hlane⟩ =>
    ⟨hv, he, h1, h2, hslot, i, by omega, hlane⟩
  lane i := (h.lane i).imp_right fun ⟨hi, hlane⟩ => ⟨by omega, hlane⟩
  bound := h.bound.trans (by omega)
  count := h.count
  untouched hfull := h.untouched fun i hi => hfull i (by omega)
  first i g hi hfree hfull hg := by
    rcases Nat.lt_succ_iff_lt_or_eq.mp hi with hi | rfl
    · exact h.first i g hi hfree hfull hg
    · obtain rfl := h.untouched hfull
      rcases hidle with hvalid | hnone
      · exact absurd (hvalid.symm.trans hfree) (by decide)
      · exact absurd (hg.symm.trans hnone) (by simp)
  stop := by
    rcases hidle with hvalid | hnone
    · refine h.stop.imp_right fun hfull i hi => ?_
      rcases Nat.lt_succ_iff_lt_or_eq.mp hi with hi | rfl
      · exact hfull i hi
      · exact hvalid
    · exact .inl hnone

/-- The next lane takes a slot: one no earlier lane has taken, since those are executing. -/
theorem ScheduledUpTo.take {g : Nat} (hn : n < s.latchSC.length) (hstep : Scheduled t u n g) :
    ScheduledUpTo s (n + 1) u := by
  obtain ⟨hvalid, hexec, hsrc1, hsrc2⟩ := hstep.candidate
  have hlt : n < t.latchSC.length := h.length.symm ▸ hn
  have hnew : t.scAt n = s.scAt n := (h.lane n).resolve_right fun hlane => absurd hlane.1 (Nat.lt_irrefl n)
  have hfree : (s.scAt n).valid = false := hnew ▸ hstep.laneFree
  have hslot : t.robAt g = s.robAt g := (h.slot g).resolve_right fun ⟨_, _, _, _, hset, _⟩ => by
    rw [hset] at hexec
    cases hexec
  have hkept {i : Nat} (hi : i < n) : u.scAt i = t.scAt i := by rw [hstep.scAt hlt, if_neg (by omega)]
  have htaken : u.scAt n = { s.scAt n with valid := true, inst := (s.robAt g).inst } := by
    rw [hstep.scAt hlt, if_pos rfl, hnew, hslot]
  rw [hslot] at hvalid hexec hsrc1 hsrc2
  refine ⟨?_, hstep.latchSC_length.trans h.length, fun v => ?_, fun i => ?_, ?_, ?_, fun hfull => ?_,
    fun i v hi hifree hfull hv => ?_, ?_⟩
  · rw [hstep.frame, h.frame]
  · rw [hstep.robAt]
    by_cases hv : v = g
    · subst hv
      rw [if_pos rfl, hslot]
      exact .inr ⟨hvalid, hexec, hsrc1, hsrc2, rfl, n, by omega, htaken⟩
    · rw [if_neg hv]
      refine (h.slot v).imp_right fun ⟨hv, he, h1, h2, hset, i, hi, hlane⟩ => ⟨hv, he, h1, h2, hset, i, by omega, ?_⟩
      rw [hkept hi, hlane]
  · by_cases hi : i = n
    · subst hi
      refine .inr ⟨by omega, hfree, g, hexec, ?_, htaken⟩
      rw [hstep.robAt, if_pos rfl]
    · rw [hstep.scAt hlt, if_neg hi]
      exact (h.lane i).imp_right fun ⟨hi, hfree, v, hv, hv', hlane⟩ =>
        ⟨by omega, hfree, v, hv, hstep.exec_of_exec hv', hlane⟩
  · have hbound := h.bound
    rw [hstep.countP_exec]
    omega
  · have hcount := h.count
    rw [hstep.countP_exec, hstep.laneCount hlt]
    omega
  · exact absurd (hfree.symm.trans (hfull n (by omega))) (by decide)
  · rcases Nat.lt_succ_iff_lt_or_eq.mp hi with hi | rfl
    · obtain ⟨hlane, hv'⟩ := h.first i v hi hifree hfull hv
      exact ⟨by rw [hkept hi, hlane], hstep.exec_of_exec hv'⟩
    · obtain rfl := h.untouched hfull
      obtain rfl : v = g := Option.some.inj (hv.symm.trans hstep.selected)
      exact ⟨htaken, by rw [hstep.robAt, if_pos rfl]⟩
  · refine .inr fun i hi => ?_
    rcases Nat.lt_succ_iff_lt_or_eq.mp hi with hi | rfl
    · rw [hkept hi]
      exact (h.stop.resolve_left (by simp [hstep.selected])) i hi
    · rw [htaken]

end

/-- A loop whose steps never raise goes on. -/
theorem forLanes_ok {f : Nat → State → Res Unit} (hf : ∀ k u v, f k u ≠ .raised v) (ks : List Nat) (s : State) :
    ∃ t, forLanes f ks s = .ok () t := by
  cases hrun : forLanes f ks s with
  | ok _ t => exact ⟨t, rfl⟩
  | raised t => exact (forLanes_raises (P := fun _ => True) (Q := fun _ => False) (fun _ _ _ _ _ => trivial)
      (fun k u v _ hr => hf k u v hr) ks s t trivial hrun).elim

theorem schedule_ok (s : State) : ∃ t, schedule s = .ok () t := forLanes_ok (fun _ _ _ => scheduleLane_ne_raised) _ s

theorem scheduledUpTo_of_schedule (hwidth : s.latchSC.length = s.cfg.pipeWidth) (h : schedule s = .ok () t) :
    ScheduledUpTo s s.cfg.pipeWidth t := by
  refine forLanes_range_keeps (fun k u v hk hu hv => ?_) (.zero s) h
  rcases scheduleLane_cases hv with ⟨rfl, hidle⟩ | ⟨g, hg⟩
  · exact hu.idle hidle
  · exact hu.take (hwidth.symm ▸ hk) hg

theorem forall_lane_iff {latch : List Lane} {p : Lane → Prop} :
    (∀ l ∈ latch, p l) ↔ ∀ i < latch.length, p (latch.getD i .empty) := by
  constructor
  · intro h i hi
    rw [List.getD_eq_getElem _ _ hi]
    exact h _ (List.getElem_mem hi)
  · intro h l hl
    obtain ⟨i, hi, rfl⟩ := List.mem_iff_getElem.mp hl
    have hp := h i hi
    rwa [List.getD_eq_getElem _ _ hi] at hp

/-- Settles O24: the loop's account of its lanes, read when all of them are done. -/
theorem scheduleTakesOnlyReadySlots : Obligations.ScheduleTakesOnlyReadySlots := by
  intro s hshape
  obtain ⟨t, hrun⟩ := schedule_ok s
  have hwidth := (widthsOk_of_wellShaped hshape).latchSC
  have h := scheduledUpTo_of_schedule hwidth hrun
  refine ⟨t, hrun, fun u => ?_, h.bound, h.count, fun i hi => ?_, fun i hi => ?_, fun i hi hi' => ?_,
    h.first, ?_, h.frame⟩
  · refine (h.slot u).imp_right fun ⟨hv, he, h1, h2, hset, i, _, hlane⟩ => ⟨hv, he, h1, h2, hset, ?_⟩
    have hvalid : (t.scAt i).valid = true := by rw [hlane]
    exact ⟨t.scAt i, lane_mem_of_valid hvalid, hvalid, by rw [hlane]⟩
  · exact (h.lane i).resolve_right fun ⟨_, hfree, _⟩ => absurd (hfree.symm.trans hi) (by decide)
  · refine (h.lane i).resolve_right fun ⟨_, _, u, _, _, hlane⟩ => ?_
    rw [hlane] at hi
    cases hi
  · rcases h.lane i with hsame | ⟨-, -, hlane⟩
    · exact absurd (hi.symm.trans (hsame ▸ hi')) (by decide)
    · exact hlane
  · refine h.stop.imp_right fun hfull => forall_lane_iff.mpr fun i hi => hfull i ?_
    rwa [h.length, hwidth] at hi

end

end Sys2Proof.Machine
end

section
/-! PROOFS. Schedule and the back end: a taken slot starts to travel. Under the in-order policy it is the oldest one not
executing (R282). -/

namespace Sys2Proof.Machine

section
variable {s t : State}

section
variable {i g : Nat} (h : Scheduled s t i g)
include h

theorem Scheduled.sameRecords : SameRecords s t where
  cfg := by rw [h.frame]
  rat := by rw [h.frame]
  robHead := by rw [h.frame]
  robTail := by rw [h.frame]
  retiredCount := by rw [h.frame]
  robLength := by rw [h.frame]; exact List.length_set
  slot u := by
    rw [h.robAt]
    split <;> exact ⟨rfl, rfl, rfl, rfl⟩

/-- The new copy has a number of its own: every other copy's slot is executing, this one's was not. -/
theorem Scheduled.execOk (hrob : RobOk s) (hs : ExecOk s) (hi : i < s.latchSC.length) : ExecOk t := by
  obtain ⟨hvalid, hexec, hsrc1, hsrc2⟩ := h.candidate
  have hready : (s.robAt g).ready = false := by
    obtain ⟨hlive, -⟩ := flagsOk_iff.mp hs.flags g
    rw [Bool.eq_false_iff]
    intro hr
    exact Bool.false_ne_true (hexec.symm.trans ((hlive hvalid).1 hr))
  have hperm : (travellers t).Perm ((s.robAt g).inst :: travellers s) := by
    have hsame : travellers t =
        travellers (s.setSC i { s.scAt i with valid := true, inst := (s.robAt g).inst }) := by rw [h.frame]; rfl
    rw [hsame]
    exact travellers_setSC_valid_perm hi h.laneFree rfl
  refine ⟨flagsOk_iff.mpr fun u => ?_, fun c hc => ?_, ?_⟩
  · rw [h.robAt]
    split
    next hu =>
      subst hu
      exact ⟨fun _ => ⟨fun _ => rfl, fun _ => ⟨hsrc1, hsrc2⟩⟩, fun hv => absurd (hvalid.symm.trans hv) (by decide)⟩
    next => exact flagsOk_iff.mp hs.flags u
  · have hcfg := h.sameRecords.cfg
    rcases List.mem_cons.mp (hperm.subset hc) with rfl | hc
    · have hlt := hrob.slot_lt hvalid
      refine ⟨g, by rwa [hcfg], hrob.ownTags g hlt hvalid, ?_⟩
      rw [h.robAt, if_pos rfl]
      exact ⟨hvalid, rfl, hready, rfl, rfl⟩
    · obtain ⟨u, hu, htag, hv, he, hcopy⟩ := hs.copies c hc
      have hne : u ≠ g := by
        rintro rfl
        exact Bool.false_ne_true (hexec.symm.trans he)
      refine ⟨u, by rwa [hcfg], htag, ?_⟩
      rw [h.robAt, if_neg hne]
      exact ⟨hv, he, hcopy⟩
  · rw [(hperm.map fun c => c.seq).nodup_iff, List.map_cons, List.nodup_cons]
    refine ⟨fun hmem => ?_, hs.distinct⟩
    obtain ⟨c, hc, hseq⟩ := List.mem_map.mp hmem
    obtain ⟨u, -, -, hv, he, -, hcseq, -⟩ := hs.copies c hc
    obtain rfl := hrob.slot_injective hv hvalid (hcseq.trans hseq)
    exact Bool.false_ne_true (hexec.symm.trans he)

theorem Scheduled.backendOk (hs : BackendOk s) (hi : i < s.cfg.pipeWidth) : BackendOk t where
  widths := ⟨by rw [h.latchSC_length, hs.widths.latchSC, h.sameRecords.cfg],
    by rw [h.sameRecords.cfg, ← hs.widths.latchEX, h.frame]⟩
  rob := hs.rob.of_sameRecords h.sameRecords
  exec := h.execOk hs.rob hs.exec (hs.widths.latchSC.symm ▸ hi)
  decoded := hs.decoded.of_sameRecords h.sameRecords (by rw [h.frame])

end

/-- Schedule keeps what each lane keeps, by the number of lanes done. -/
theorem schedule_keeps {P : Nat → State → Prop} (hidle : ∀ i u, P i u → P (i + 1) u)
    (hP : ∀ i u v g, i < s.cfg.pipeWidth → Scheduled u v i g → P i u → P (i + 1) v) (hs : P 0 s)
    (h : schedule s = .ok () t) : P s.cfg.pipeWidth t := by
  refine forLanes_range_keeps (fun i u v hi hu hv => ?_) hs h
  rcases scheduleLane_cases hv with ⟨rfl, -⟩ | ⟨g, hg⟩
  · exact hidle i v hu
  · exact hP i u v g hi hg hu

theorem schedule_backendOk (hs : BackendOk s) (h : schedule s = .ok () t) : BackendOk t := by
  refine And.left (schedule_keeps (P := fun _ u => BackendOk u ∧ u.cfg = s.cfg) (fun _ _ hu => hu)
    (fun i u v g hi hg hu => ?_) ⟨hs, rfl⟩ h)
  obtain ⟨hu, hcfg⟩ := hu
  exact ⟨hg.backendOk hu (hcfg ▸ hi), hg.sameRecords.cfg.trans hcfg⟩

/-! ## Program order -/

/-- `rob_order` lists the window's places (R141). -/
theorem RobOk.robOrder (hs : RobOk s) :
    robOrder s = (List.range (robCount s)).map (fun k => (s.robHead + k) % s.cfg.robSize) := by
  obtain ⟨m, hm⟩ := Nat.exists_eq_add_of_le hs.robCount_le
  have hvalid {k : Nat} (hk : k < s.cfg.robSize) := hs.valid_fromHead hk
  rw [Machine.robOrder, List.filter_map]
  refine congrArg (List.map _) ?_
  rw [hm, List.range_add, List.filter_append]
  have hin : (List.range (robCount s)).filter
      ((fun t => (s.robAt t).valid) ∘ fun k => (s.robHead + k) % s.cfg.robSize) = List.range (robCount s) := by
    refine List.filter_eq_self.mpr fun k hk => ?_
    rw [List.mem_range] at hk
    exact (hvalid (by omega)).mpr hk
  have hout : ((List.range m).map (robCount s + ·)).filter
      ((fun t => (s.robAt t).valid) ∘ fun k => (s.robHead + k) % s.cfg.robSize) = [] := by
    refine List.filter_eq_nil_iff.mpr fun k hk hv => ?_
    obtain ⟨j, hj, rfl⟩ := List.mem_map.mp hk
    rw [List.mem_range] at hj
    exact absurd ((hvalid (by omega)).mp hv) (by omega)
  rw [← hm, hin, hout, List.append_nil]

/-- Everything before the in-order choice is executing. -/
theorem exec_of_before_firstInOrder {g : Nat} : ∀ {ts : List Nat}, firstInOrder s ts = some g →
    ∃ m : Nat, ts[m]? = some g ∧ ∀ k < m, ∀ u, ts[k]? = some u → (s.robAt u).exec = true
  | [], h => nomatch h
  | v :: ts, h => by
    unfold firstInOrder at h
    split at h
    next hexec =>
      obtain ⟨m, hm, hbefore⟩ := exec_of_before_firstInOrder h
      refine ⟨m + 1, by simpa using hm, fun k hk u hu => ?_⟩
      cases k with
      | zero => cases hu; exact hexec
      | succ k => exact hbefore k (by omega) u (by simpa using hu)
    next =>
      split at h
      next => cases h; exact ⟨0, rfl, fun k hk => absurd hk (Nat.not_lt_zero k)⟩
      next => cases h

section
variable {i g : Nat} (h : Scheduled s t i g) (hrob : RobOk s) (hpolicy : s.cfg.schedPolicy = .inOrder)
include h hrob hpolicy

/-- In order, the slot taken is the first of the window that is not executing (R203). -/
theorem Scheduled.place_of_inOrder :
    ∃ m < robCount s, (s.robHead + m) % s.cfg.robSize = g ∧ ∀ k < m, (slotFromHead s k).exec = true := by
  have hselect : firstInOrder s (robOrder s) = some g := by
    have hsel := h.selected
    rwa [select, hpolicy] at hsel
  obtain ⟨m, hm, hbefore⟩ := exec_of_before_firstInOrder hselect
  rw [hrob.robOrder, List.getElem?_map, Option.map_eq_some_iff] at hm
  obtain ⟨_, hm, hg⟩ := hm
  obtain ⟨hlt, hm⟩ := List.getElem?_eq_some_iff.mp hm
  rw [List.getElem_range] at hm
  subst hm
  rw [List.length_range] at hlt
  refine ⟨m, hlt, hg, fun k hk => hbefore k hk _ ?_⟩
  rw [hrob.robOrder, List.getElem?_map, List.getElem?_range (by omega)]
  rfl

theorem Scheduled.inOrderPrefix (hprefix : InOrderPrefix s) : InOrderPrefix t := by
  obtain ⟨m, hm, rfl, hbefore⟩ := h.place_of_inOrder hrob hpolicy
  have hle := hrob.robCount_le
  intro _ j hj k hk hexec
  rw [h.sameRecords.robCount] at hj
  have hkeep (hs : (slotFromHead s k).exec = true) : (slotFromHead t k).exec = true := by
    rw [slotFromHead, h.sameRecords.robHead, h.sameRecords.cfg]
    exact h.exec_of_exec hs
  by_cases hjm : j ≤ m
  · exact hkeep (hbefore k (by omega))
  · have hne : (s.robHead + j) % s.cfg.robSize ≠ (s.robHead + m) % s.cfg.robSize := fun he =>
      hjm (fromHead_injective (by omega) (by omega) he).le
    rw [slotFromHead, h.sameRecords.robHead, h.sameRecords.cfg, h.robAt, if_neg hne] at hexec
    exact hkeep (hprefix hpolicy j hj k hk hexec)

/-- In order, the slot taken is younger than everything that travels. -/
theorem Scheduled.seq_lt (hexec : ExecOk s) (hprefix : InOrderPrefix s) {c : Inst} (hc : c ∈ travellers s) :
    c.seq < (s.robAt g).inst.seq := by
  obtain ⟨-, hfree, -⟩ := h.candidate
  obtain ⟨m, hm, rfl, -⟩ := h.place_of_inOrder hrob hpolicy
  obtain ⟨u, -, -, hvalid, hu, -, hseq, -⟩ := hexec.copies c hc
  obtain ⟨p, hp, rfl, hpseq⟩ := hrob.place_of_valid hvalid
  have hmseq := hrob.seq_fromHead hm
  have hpm : p < m := by
    rcases Nat.lt_trichotomy p m with hlt | rfl | hlt
    · exact hlt
    · exact absurd (hu.symm.trans hfree) (by decide)
    · exact absurd ((hprefix hpolicy p hp m hlt hu).symm.trans hfree) (by decide)
  rw [slotFromHead] at hmseq
  omega

end

/-- In-order scheduling when `n` lanes are done: the lanes to come are empty, and the lanes done hold increasing sequence
numbers (R282). -/
structure InOrderLanes (s : State) (n : Nat) : Prop where
  backend : BackendOk s
  executing : InOrderPrefix s
  empty : ∀ i, n ≤ i → (s.scAt i).valid = false
  sorted : ∀ i j, i < j → (s.scAt i).valid = true → (s.scAt j).valid = true → (s.scAt i).inst.seq < (s.scAt j).inst.seq

theorem Scheduled.inOrderLanes {n g : Nat} (h : Scheduled s t n g) (hs : InOrderLanes s n)
    (hpolicy : s.cfg.schedPolicy = .inOrder) (hn : n < s.cfg.pipeWidth) : InOrderLanes t (n + 1) := by
  have hlt : n < s.latchSC.length := hs.backend.widths.latchSC.symm ▸ hn
  have hlane := h.scAt hlt
  refine ⟨h.backendOk hs.backend hn, h.inOrderPrefix hs.backend.rob hpolicy hs.executing, fun i hi => ?_,
    fun i j hij hi hj => ?_⟩
  · rw [hlane, if_neg (by omega)]
    exact hs.empty i (by omega)
  · have hjn : j ≤ n := by
      by_contra hgt
      rw [hlane, if_neg (by omega), hs.empty j (by omega)] at hj
      cases hj
    rw [hlane, if_neg (by omega)] at hi ⊢
    rw [hlane] at hj ⊢
    split
    next =>
      refine h.seq_lt hs.backend.rob hpolicy hs.backend.exec hs.executing ?_
      exact List.mem_append_left _ (List.mem_append_left _ (inst_mem_laneRecords hi))
    next hne =>
      rw [if_neg hne] at hj
      exact hs.sorted i j hij hi hj

theorem schedule_inOrderLanes (hs : InOrderLanes s 0) (hpolicy : s.cfg.schedPolicy = .inOrder)
    (h : schedule s = .ok () t) : InOrderLanes t s.cfg.pipeWidth := by
  refine And.left (schedule_keeps (P := fun i u => InOrderLanes u i ∧ u.cfg = s.cfg) (fun i u hu => ?_)
    (fun i u v g hi hg hu => ?_) ⟨hs, rfl⟩ h)
  · obtain ⟨hu, hcfg⟩ := hu
    exact ⟨{ hu with empty := fun j hj => hu.empty j (by omega) }, hcfg⟩
  · obtain ⟨hu, hcfg⟩ := hu
    exact ⟨hg.inOrderLanes hu (hcfg ▸ hpolicy) (hcfg ▸ hi), hg.sameRecords.cfg.trans hcfg⟩

end

end Sys2Proof.Machine
end

section
/-! PROOFS. Between Writeback and Schedule the latches on the way are empty: Writeback empties the execute latch, so
Execute finds a lane for every single-cycle record, and a tick that does not overflow takes every other record into the EXEQ
(46_execute_writeback.md R220, R222, R226). -/

namespace Sys2Proof.Machine

section
variable {s t : State}

theorem lat_pos (cfg : Config) (op : OpClass) : 1 ≤ lat cfg op := by
  rw [lat_eq_ite]
  split
  · exact cfg.one_le_loadLatency
  · exact Nat.le_refl 1

theorem valid_scAt_emptySC (i : Nat) (s : State) : ((emptySC i s).scAt i).valid = false := by
  rw [emptySC, State.scAt_setSC]
  split
  next => rfl
  next hout =>
    rw [State.scAt, List.getD_eq_default _ _ (by omega)]
    rfl

theorem scAt_emptySC_of_ne {i j : Nat} (hij : j ≠ i) (s : State) : (emptySC i s).scAt j = s.scAt j := by
  rw [emptySC, State.scAt_setSC, if_neg fun hand => hij hand.1]

/-! ## Writeback -/

theorem writeback_empties_latchEX (hwidth : s.latchEX.length = s.cfg.wbWidth) (h : writeback s = .ok () t) (i : Nat) :
    (t.exAt i).valid = false := by
  have hdone : (∀ j < s.cfg.wbWidth, (t.exAt j).valid = false) ∧ t.latchEX.length = s.latchEX.length := by
    refine forLanes_range_keeps (P := fun n u => (∀ j < n, (u.exAt j).valid = false) ∧
      u.latchEX.length = s.latchEX.length) (fun n u v _ hu hv => ?_) ⟨fun j hj => absurd hj (Nat.not_lt_zero j), rfl⟩ h
    obtain ⟨hempty, hlength⟩ := hu
    rcases writebackLane_cases hv with ⟨hfree, rfl⟩ | ⟨g, hg⟩
    · refine ⟨fun j hj => ?_, hlength⟩
      rcases Nat.lt_succ_iff_lt_or_eq.mp hj with hj | rfl
      · exact hempty j hj
      · exact hfree
    · have hEX : v.latchEX = u.latchEX.set n { u.exAt n with valid := false } := by rw [hg.frame]
      refine ⟨fun j hj => ?_, by rw [hEX, List.length_set, hlength]⟩
      rw [State.exAt, hEX, getD_set]
      split
      next => rfl
      next hne => exact hempty j (by have := lt_length_of_lane_valid hg.laneValid; omega)
  obtain ⟨hempty, hlength⟩ := hdone
  by_contra hvalid
  rw [Bool.not_eq_false] at hvalid
  have hlt := lt_length_of_lane_valid hvalid
  rw [hlength, hwidth] at hlt
  exact Bool.false_ne_true ((hempty i hlt).symm.trans hvalid)

/-! ## Execute -/

theorem laneCount_eq_zero {latch : List Lane} (h : ∀ i, (latch.getD i .empty).valid = false) : laneCount latch = 0 := by
  rw [laneCount_eq_length, laneRecords_of_all_invalid (forall_lane_iff.mpr fun i _ => h i), List.length_nil]

theorem freeExLane_isSome (h : laneCount s.latchEX < s.latchEX.length) : ∃ k, freeExLane s = some k := by
  cases hk : freeExLane s with
  | some k => exact ⟨k, rfl⟩
  | none =>
    have hall : laneCount s.latchEX = s.latchEX.length :=
      List.countP_eq_length.mpr fun l hl => by simpa using List.findIdx?_eq_none_iff.mp hk l hl
    omega

/-- With a free execute-latch lane a bypass lane is left without a single-cycle record. -/
theorem bypassLane_done {i : Nat} (h : bypassLane i s = .ok () t) (hfree : ∃ k, freeExLane s = some k)
    (hvalid : (t.scAt i).valid = true) : lat t.cfg (t.scAt i).inst.op ≠ 1 := by
  obtain ⟨k, hk⟩ := hfree
  simp only [bypassLane, hk] at h
  split at h
  next =>
    cases h
    exact absurd ((valid_scAt_emptySC i _).symm.trans hvalid) (by decide)
  next hcond =>
    cases h
    intro hlat
    exact hcond (by simp [hvalid, hlat])

/-- An enqueue lane that does not raise is left without a multi-cycle record. -/
theorem enqueueLane_done {i : Nat} (h : enqueueLane i s = .ok () t) (hvalid : (t.scAt i).valid = true) :
    lat t.cfg (t.scAt i).inst.op ≤ 1 := by
  unfold enqueueLane at h
  split at h
  next =>
    obtain ⟨_, u, _, hk⟩ := Res.bind_eq_ok.mp h
    cases hk
    exact absurd ((valid_scAt_emptySC i _).symm.trans hvalid) (by decide)
  next hcond =>
    cases h
    by_contra hlat
    exact hcond (by simpa [hvalid] using hlat)

/-- After the bypass no schedule lane holds a single-cycle record: each lane done has taken at most one execute lane. -/
theorem bypass_leaves_multiCycle (hwidths : WidthsOk s) (hEX : ∀ i, (s.exAt i).valid = false)
    (h : forLanes bypassLane (List.range s.cfg.pipeWidth) s = .ok () t) {i : Nat} (hi : i < s.cfg.pipeWidth)
    (hvalid : (t.scAt i).valid = true) : lat t.cfg (t.scAt i).inst.op ≠ 1 := by
  have hdone : Carried s t ∧ laneCount t.latchEX ≤ s.cfg.pipeWidth ∧
      ∀ j < s.cfg.pipeWidth, (t.scAt j).valid = true → lat t.cfg (t.scAt j).inst.op ≠ 1 := by
    refine forLanes_range_keeps (P := fun n u => Carried s u ∧ laneCount u.latchEX ≤ n ∧
      ∀ j < n, (u.scAt j).valid = true → lat u.cfg (u.scAt j).inst.op ≠ 1) (fun n u v hn hu hv => ?_)
      ⟨.refl s, (laneCount_eq_zero hEX).le, fun j hj => absurd hj (Nat.not_lt_zero j)⟩ h
    obtain ⟨hcarried, hcount, hlanes⟩ := hu
    have hfree : ∃ k, freeExLane u = some k := freeExLane_isSome <| by
      rw [hcarried.lengthEX, hwidths.latchEX]
      exact (hcount.trans_lt hn).trans_le s.cfg.pipeWidth_le_wbWidth
    refine ⟨hcarried.trans (carried_bypassLane hv), ?_, fun j hj hjv => ?_⟩
    · rcases bypassLane_eq_ok hv with rfl | ⟨k, -, -, hk, rfl⟩
      · omega
      · obtain ⟨hlt, hempty, -⟩ := List.findIdx?_eq_some_iff_getElem.mp hk
        have hperm := laneRecords_set_valid_perm (latch := u.latchEX) (k := k)
          (l := { u.exAt k with valid := true, inst := (u.scAt n).inst }) hlt
          (by rw [List.getD_eq_getElem _ _ hlt]; simpa using hempty) rfl
        have hlength := hperm.length_eq
        rw [← laneCount_eq_length, List.length_cons, ← laneCount_eq_length] at hlength
        exact hlength.le.trans (by omega)
    · rcases Nat.lt_succ_iff_lt_or_eq.mp hj with hj | rfl
      · rcases bypassLane_eq_ok hv with rfl | ⟨k, -, -, -, rfl⟩
        · exact hlanes j hj hjv
        · rw [scAt_emptySC_of_ne (by omega)] at hjv ⊢
          exact hlanes j hj hjv
      · exact bypassLane_done hv hfree hjv
  obtain ⟨-, -, hlanes⟩ := hdone
  exact hlanes i hi hvalid

/-- With no single-cycle record in the schedule latch, the enqueue lanes empty it. -/
theorem enqueue_empties (hlanes : ∀ i < s.cfg.pipeWidth, (s.scAt i).valid = true → lat s.cfg (s.scAt i).inst.op ≠ 1)
    (h : forLanes enqueueLane (List.range s.cfg.pipeWidth) s = .ok () t) {i : Nat} (hi : i < s.cfg.pipeWidth) :
    (t.scAt i).valid = false := by
  have hdone : t.cfg = s.cfg ∧ (∀ j, (t.scAt j).valid = true → t.scAt j = s.scAt j) ∧
      ∀ j < s.cfg.pipeWidth, (t.scAt j).valid = false := by
    refine forLanes_range_keeps (P := fun n u => u.cfg = s.cfg ∧ (∀ j, (u.scAt j).valid = true → u.scAt j = s.scAt j) ∧
      ∀ j < n, (u.scAt j).valid = false) (fun n u v hn hu hv => ?_)
      ⟨rfl, fun _ _ => rfl, fun j hj => absurd hj (Nat.not_lt_zero j)⟩ h
    obtain ⟨hcfg, hsame, hempty⟩ := hu
    have hcfg' : v.cfg = s.cfg := (carried_enqueueLane hv).sameRecords.cfg.trans hcfg
    have hother (j : Nat) (hj : (v.scAt j).valid = true) : v.scAt j = u.scAt j := by
      rcases enqueueLane_eq_ok hv with rfl | ⟨q, -, -, -, -, -, rfl⟩
      · rfl
      · refine scAt_emptySC_of_ne (fun hjn => ?_) _
        subst hjn
        exact Bool.false_ne_true ((valid_scAt_emptySC j _).symm.trans hj)
    have hkept (j : Nat) (hj : (v.scAt j).valid = true) : v.scAt j = s.scAt j := by
      have hju := hother j hj
      exact hju.trans (hsame j (hju ▸ hj))
    refine ⟨hcfg', hkept, fun j hj => ?_⟩
    by_contra hjv
    rw [Bool.not_eq_false] at hjv
    rcases Nat.lt_succ_iff_lt_or_eq.mp hj with hj | rfl
    · exact Bool.false_ne_true ((hempty j hj).symm.trans (hother j hjv ▸ hjv))
    · have hle := enqueueLane_done hv hjv
      have hsj := hkept j hjv
      rw [hsj, hcfg'] at hle
      exact hlanes j hn (hsj ▸ hjv) (Nat.le_antisymm hle (lat_pos _ _))
  obtain ⟨-, -, hempty⟩ := hdone
  exact hempty i hi

theorem execute_empties_latchSC (hwidths : WidthsOk s) (hEX : ∀ i, (s.exAt i).valid = false)
    (h : execute s = .ok () t) (i : Nat) : (t.scAt i).valid = false := by
  by_contra hvalid
  rw [Bool.not_eq_false] at hvalid
  have hcarried := carried_execute h
  have hi : i < s.cfg.pipeWidth := by
    have hlt := lt_length_of_lane_valid hvalid
    rwa [hcarried.lengthSC, hwidths.latchSC] at hlt
  obtain ⟨u, v, hu, hv, rfl⟩ := execute_eq_ok h
  have hSC : (drainUpTo v.latchEX.length (exeqCycle v)).scAt i = v.scAt i := by
    refine drainUpTo_keeps (P := fun w => w.scAt i = v.scAt i) (fun w k x z hw _ hx => ?_) _ _ rfl
    obtain ⟨q, -, -, -, rfl⟩ := exeqRemoveFinished_eq_some hx
    exact hw
  have hcfg : u.cfg = s.cfg :=
    forLanes_keeps (P := fun w => w.cfg = s.cfg)
      (fun _ _ _ hw hk => (carried_bypassLane hk).sameRecords.cfg.trans hw) _ s u rfl hu
  rw [hSC, enqueue_empties (fun j hj => bypass_leaves_multiCycle hwidths hEX hu (hcfg ▸ hj)) (hcfg.symm ▸ hv)
    (hcfg.symm ▸ hi)] at hvalid
  cases hvalid

end

end Sys2Proof.Machine
end

section
/-! PROOFS. Issue and the back end (spec/44_issue_rename.md): one issue appends the oldest decoded record to the window and
maps its destination to the new slot. -/

namespace Sys2Proof.Machine

section
variable {s t : State}

/-- The oldest lane holds an instruction, and none in the latch is older. -/
theorem oldestLane_eq_some {latch : List Lane} {j : Nat} (h : oldestLane latch = some j) :
    (latch.getD j .empty).valid = true ∧ ∀ q ∈ latchSeqs latch, (latch.getD j .empty).inst.seq ≤ q := by
  obtain ⟨a, hkey, hleast⟩ := oldest_eq_some h
  rw [List.getElem?_map, Option.map_eq_some_iff] at hkey
  obtain ⟨l, hl, hkey⟩ := hkey
  obtain ⟨hlt, rfl⟩ := List.getElem?_eq_some_iff.mp hl
  rw [List.getD_eq_getElem _ _ hlt]
  split at hkey
  next hvalid =>
    cases hkey
    refine ⟨hvalid, fun q hq => hleast q ?_⟩
    simp only [latchSeqs, List.mem_map, List.mem_filter] at hq
    obtain ⟨m, ⟨hm, hmv⟩, rfl⟩ := hq
    exact List.mem_map.mpr ⟨m, hm, by rw [if_pos hmv]⟩
  next => cases hkey

theorem RobOk.robTail_lt (hs : RobOk s) : s.robTail < s.cfg.robSize := by
  obtain ⟨htail, -, -⟩ := hs.window
  rw [htail]
  exact Nat.mod_lt _ s.cfg.one_le_robSize

/-- The tail follows the window, so it is the head exactly where the window is the whole ROB. -/
theorem RobOk.robTail_eq_robHead (hs : RobOk s) (hfull : robCount s = s.cfg.robSize) : s.robTail = s.robHead := by
  obtain ⟨htail, -, -⟩ := hs.window
  rw [htail, hfull, Nat.add_mod_right, Nat.mod_eq_of_lt hs.headLt]

theorem RobOk.robHasSpace_iff (hs : RobOk s) : robHasSpace s = true ↔ robCount s < s.cfg.robSize := by
  obtain ⟨htail, -, -⟩ := hs.window
  rw [robHasSpace, Bool.not_eq_true']
  constructor
  · intro hfree
    by_contra hfull
    have hcount : robCount s = s.cfg.robSize := Nat.le_antisymm hs.robCount_le (by omega)
    have hhead := (hs.valid_fromHead s.cfg.one_le_robSize).mpr (hcount ▸ s.cfg.one_le_robSize)
    rw [slotFromHead, Nat.add_zero, Nat.mod_eq_of_lt hs.headLt, ← hs.robTail_eq_robHead hcount, hfree] at hhead
    cases hhead
  · intro hlt
    have hslot := hs.valid_fromHead hlt
    rw [slotFromHead, ← htail] at hslot
    rw [Bool.eq_false_iff]
    exact fun hvalid => absurd (hslot.mp hvalid) (Nat.lt_irrefl _)

/-- One record issued from decode lane `j`: it stands in the tail slot as `x`, with the slot as its tag, and its
destination is mapped to it (R186, R189). -/
structure Issued (s t : State) (j : Nat) (x : Inst) : Prop where
  space : robHasSpace s = true
  seq : x.seq = (s.idAt j).inst.seq
  dest : x.dest = (s.idAt j).inst.dest
  tag : x.drTag = some s.robTail
  ratLength : t.rat.length = s.rat.length
  ratAt : ∀ r, t.ratAt r = if x.dest = some r ∧ r < s.rat.length then some s.robTail else s.ratAt r
  frame : t = { s with
    rat := t.rat
    rob := s.rob.set s.robTail { valid := true, exec := false, ready := false, inst := x }
    robTail := nextSlot s s.robTail
    latchID := s.latchID.set j { s.idAt j with valid := false } }

theorem renameDest_eq (dest : Option Nat) (g : Nat) (s : State) :
    renameDest dest g s = { s with rat := (renameDest dest g s).rat } ∧
      (renameDest dest g s).rat.length = s.rat.length ∧
      ∀ r, (renameDest dest g s).ratAt r = if dest = some r ∧ r < s.rat.length then some g else s.ratAt r := by
  cases dest with
  | none => exact ⟨rfl, rfl, fun r => by simp [renameDest]⟩
  | some d =>
    refine ⟨rfl, List.length_set, fun r => ?_⟩
    rw [renameDest, ratSetRemap, State.ratAt_setRat]
    refine if_congr ?_ rfl rfl
    constructor
    · rintro ⟨rfl, hlt⟩
      exact ⟨rfl, hlt⟩
    · rintro ⟨hd, hlt⟩
      obtain rfl := Option.some.inj hd
      exact ⟨rfl, hlt⟩

theorem issueOne_cases {j : Nat} (h : issueOne j s = .ok () t) : ∃ x, Issued s t j x := by
  obtain ⟨a, b, g, u, -, -, hinsert, rfl⟩ := issueOne_eq_ok h
  obtain ⟨hfree, rfl, rfl⟩ := robInsert_eq_ok hinsert
  obtain ⟨hframe, hlength, hat⟩ := renameDest_eq (s.idAt j).inst.dest s.robTail
    { s.setRob s.robTail
        { valid := true, exec := false, ready := false
          inst := { (s.idAt j).inst with
            src1Tag := a.1, src1Ready := a.2, src2Tag := b.1, src2Ready := b.2, drTag := some s.robTail } } with
      robTail := nextSlot s s.robTail }
  refine ⟨{ (s.idAt j).inst with
    src1Tag := a.1, src1Ready := a.2, src2Tag := b.1, src2Ready := b.2, drTag := some s.robTail },
    by rw [robHasSpace, hfree]; rfl, rfl, rfl, rfl, hlength, hat, ?_⟩
  rw [hframe]
  rfl

section
variable {j : Nat} {x : Inst} (h : Issued s t j x)
include h

theorem Issued.cfg : t.cfg = s.cfg := by rw [h.frame]
theorem Issued.rob : t.rob = s.rob.set s.robTail { valid := true, exec := false, ready := false, inst := x } := by
  rw [h.frame]
theorem Issued.robHead : t.robHead = s.robHead := by rw [h.frame]
theorem Issued.robTail : t.robTail = (s.robTail + 1) % s.cfg.robSize := by rw [h.frame]; rfl
theorem Issued.retiredCount : t.retiredCount = s.retiredCount := by rw [h.frame]
theorem Issued.latchSC : t.latchSC = s.latchSC := by rw [h.frame]
theorem Issued.latchEX : t.latchEX = s.latchEX := by rw [h.frame]
theorem Issued.exeq : t.exeq = s.exeq := by rw [h.frame]
theorem Issued.latchID : t.latchID = s.latchID.set j { s.idAt j with valid := false } := by rw [h.frame]

theorem Issued.tailFree : (s.robAt s.robTail).valid = false := by
  have hspace := h.space
  rwa [robHasSpace, Bool.not_eq_true'] at hspace

theorem Issued.travellers : travellers t = travellers s := by
  simp only [Machine.travellers, exeqRecords, h.exeq, h.latchSC, h.latchEX]

section
variable (hs : RobOk s)
include hs

theorem Issued.robAt (u : Nat) :
    t.robAt u = if u = s.robTail then { valid := true, exec := false, ready := false, inst := x } else s.robAt u := by
  rw [State.robAt, h.rob, getD_set]
  by_cases hu : u = s.robTail
  · rw [if_pos hu, if_pos ⟨hu, hs.robLength.symm ▸ hs.robTail_lt⟩]
  · rw [if_neg hu, if_neg fun hand => hu hand.1, State.robAt]

theorem Issued.robAt_of_valid {u : Nat} (hu : (s.robAt u).valid = true) : t.robAt u = s.robAt u := by
  rw [h.robAt hs, if_neg]
  rintro rfl
  exact Bool.false_ne_true (h.tailFree.symm.trans hu)

theorem Issued.robCount : robCount t = robCount s + 1 := by
  have hlt : s.robTail < s.rob.length := hs.robLength.symm ▸ hs.robTail_lt
  have hfree := h.tailFree
  rw [State.robAt, List.getD_eq_getElem _ _ hlt] at hfree
  rw [Machine.robCount, Machine.robCount, h.rob, List.countP_set hlt, hfree]
  simp

theorem Issued.slotFromHead {k : Nat} (hk : k < s.cfg.robSize) : slotFromHead t k =
    if k = Machine.robCount s then { valid := true, exec := false, ready := false, inst := x }
    else slotFromHead s k := by
  obtain ⟨htail, -, -⟩ := hs.window
  have hcount := hs.robHasSpace_iff.mp h.space
  rw [Machine.slotFromHead, h.robHead, h.cfg, h.robAt hs]
  refine if_congr ?_ rfl rfl
  rw [htail]
  exact ⟨fromHead_injective hk hcount, fun he => by rw [he]⟩

theorem Issued.windowOk (hseq : x.seq = s.retiredCount + Machine.robCount s + 1) : WindowOk t := by
  obtain ⟨htail, -, -⟩ := hs.window
  refine ⟨?_, fun k hk => ?_, fun k hk hkc => ?_⟩
  · rw [h.robTail, h.robHead, h.cfg, h.robCount hs, htail, Nat.mod_add_mod, Nat.add_assoc]
  · rw [h.cfg] at hk
    rw [h.slotFromHead hs hk, h.robCount hs]
    split
    next he => rw [he]; exact (decide_eq_true (Nat.lt_succ_self _)).symm
    next hne =>
      rw [Bool.eq_iff_iff, hs.valid_fromHead hk, decide_eq_true_iff]
      omega
  · rw [h.cfg] at hk
    rw [h.robCount hs] at hkc
    rw [h.slotFromHead hs hk, h.retiredCount]
    split
    next he => rw [hseq, he]; omega
    next hne => exact hs.seq_fromHead (by omega)

/-- The new record is the youngest of all and its destination's mapping names it. -/
theorem Issued.ratOk (hseq : x.seq = s.retiredCount + Machine.robCount s + 1)
    (hdest : ∀ d ∈ x.dest, d < s.cfg.numArchRegs) : RatOk t := by
  obtain ⟨hmapped, hwriter⟩ := hs.rat
  have hnew : t.robAt s.robTail = { valid := true, exec := false, ready := false, inst := x } := by
    rw [h.robAt hs, if_pos rfl]
  constructor
  · intro r hr g hg
    rw [h.cfg] at hr
    rw [Option.mem_def, h.ratAt] at hg
    split at hg
    next hd =>
      cases hg
      rw [hnew]
      refine ⟨rfl, hd.1, h.tag, fun u hu hv _ => ?_⟩
      rw [h.robAt hs] at hv ⊢
      split at hv
      next hu => rw [if_pos hu]
      next hu =>
        obtain ⟨k, hk, -, hkseq⟩ := hs.place_of_valid hv
        rw [if_neg hu, hkseq, hseq]
        omega
    next hd =>
      obtain ⟨hv, hgd, htag, hyoungest⟩ := hmapped r hr g hg
      rw [h.robAt_of_valid hs hv]
      refine ⟨hv, hgd, htag, fun u hu huv hud => ?_⟩
      rw [h.robAt hs] at huv hud ⊢
      split at huv
      next hu =>
        rw [if_pos hu] at hud
        exact absurd ⟨hud, hs.ratLength.symm ▸ hr⟩ hd
      next hu =>
        rw [if_neg hu] at hud ⊢
        exact hyoungest u (h.cfg ▸ ‹u < t.cfg.robSize›) huv hud
  · intro u hu huv r hr
    rw [h.ratAt]
    rw [h.robAt hs] at huv hr
    split
    next => exact Option.some_ne_none _
    next hd =>
      split at huv
      next hu =>
        rw [if_pos hu] at hr
        exact absurd ⟨hr, hs.ratLength.symm ▸ hdest r hr⟩ hd
      next hu =>
        rw [if_neg hu] at hr
        exact hwriter u (h.cfg ▸ ‹u < t.cfg.robSize›) huv r hr

theorem Issued.robOk (hseq : x.seq = s.retiredCount + Machine.robCount s + 1)
    (hdest : ∀ d ∈ x.dest, d < s.cfg.numArchRegs) : RobOk t where
  robLength := by rw [h.rob, List.length_set, hs.robLength, h.cfg]
  ratLength := by rw [h.ratLength, hs.ratLength, h.cfg]
  headLt := by rw [h.robHead, h.cfg]; exact hs.headLt
  window := h.windowOk hs hseq
  ownTags u hu hv := by
    rw [h.robAt hs] at hv ⊢
    split at hv
    next he => rw [if_pos he, he]; exact h.tag
    next hne => rw [if_neg hne]; exact hs.ownTags u (h.cfg ▸ hu) hv
  rat := h.ratOk hs hseq hdest

theorem Issued.execOk (hx : ExecOk s) : ExecOk t where
  flags := by
    rw [flagsOk_iff]
    intro u
    rw [h.robAt hs]
    split
    next => exact ⟨fun _ => ⟨fun hr => (nomatch hr), fun he => nomatch he⟩, fun hv => nomatch hv⟩
    next => exact flagsOk_iff.mp hx.flags u
  copies c hc := by
    rw [h.travellers] at hc
    obtain ⟨u, hu, htag, hv, hcopy⟩ := hx.copies c hc
    refine ⟨u, by rwa [h.cfg], htag, ?_⟩
    rw [h.robAt_of_valid hs hv]
    exact ⟨hv, hcopy⟩
  distinct := by rw [h.travellers]; exact hx.distinct

theorem Issued.inOrderPrefix (hprefix : InOrderPrefix s) : InOrderPrefix t := by
  have hcount := hs.robHasSpace_iff.mp h.space
  intro hpolicy j hj k hk hexec
  rw [h.robCount hs] at hj
  rw [h.slotFromHead hs (by omega)] at hexec ⊢
  split at hexec
  next => cases hexec
  next hne =>
    rw [if_neg (by omega)]
    exact hprefix (h.cfg ▸ hpolicy) j (by omega) k hk hexec

end

/-- Issue takes the number that follows the ROB's, and leaves the numbers after it. -/
theorem Issued.seq_and_rest (hs : DecodedOk s) (hj : oldestLane s.latchID = some j) :
    x.seq = s.retiredCount + Machine.robCount s + 1 ∧
      (latchSeqs t.latchID).Perm (List.range' (s.retiredCount + Machine.robCount s + 2) (laneCount t.latchID)) := by
  obtain ⟨hvalid, hleast⟩ := oldestLane_eq_some hj
  have hperm := laneRecords_set_invalid_perm (l := { s.idAt j with valid := false }) hvalid rfl
  rw [← h.latchID] at hperm
  have hcount := hperm.length_eq
  rw [List.length_cons, ← laneCount_eq_length, ← laneCount_eq_length] at hcount
  have hseqs := hperm.map fun c => c.seq
  rw [List.map_cons, ← latchSeqs_eq_map, ← latchSeqs_eq_map] at hseqs
  have hrange := hseqs.trans hs.seqs
  rw [← hcount] at hrange
  obtain ⟨hlow, -⟩ := List.mem_range'_1.mp (hrange.subset List.mem_cons_self)
  rw [List.range'_succ] at hrange
  have hhigh := hleast _ (hseqs.subset (hrange.symm.subset List.mem_cons_self))
  have hfirst : (s.latchID.getD j .empty).inst.seq = s.retiredCount + Machine.robCount s + 1 :=
    Nat.le_antisymm hhigh hlow
  rw [hfirst] at hrange
  exact ⟨h.seq.trans hfirst, hrange.cons_inv⟩

theorem Issued.backendOk (hs : BackendOk s) (hj : oldestLane s.latchID = some j) : BackendOk t := by
  obtain ⟨hseq, hrest⟩ := h.seq_and_rest hs.decoded hj
  obtain ⟨hvalid, -⟩ := oldestLane_eq_some hj
  have hdest : ∀ d ∈ x.dest, d < s.cfg.numArchRegs := by
    rw [h.dest]
    exact hs.decoded.dests _ (lane_mem_of_valid hvalid) hvalid
  refine ⟨⟨by rw [h.latchSC, h.cfg, hs.widths.latchSC], by rw [h.latchEX, h.cfg, hs.widths.latchEX]⟩,
    h.robOk hs.rob hseq hdest, h.execOk hs.rob hs.exec, ?_, fun l hl hlv => ?_⟩
  · rw [h.robCount hs.rob, h.retiredCount]
    exact hrest
  · rw [h.latchID] at hl
    rw [h.cfg]
    rcases List.mem_or_eq_of_mem_set hl with hl | rfl
    · exact hs.decoded.dests l hl hlv
    · cases hlv

end

/-- Issue keeps what each issue keeps. -/
theorem issue_keeps {P : State → Prop}
    (hP : ∀ u v j x, oldestLane u.latchID = some j → Issued u v j x → P u → P v) (hs : P s)
    (h : issue s = .ok () t) : P t := by
  refine issueUpTo_keeps (fun u j v hu _ hj hv => ?_) _ s t hs h
  obtain ⟨x, hx⟩ := issueOne_cases hv
  exact hP u v j x hj hx hu

/-- A full ROB stops Issue at once. -/
theorem issue_of_full (h : robHasSpace s = false) : issue s = .ok () s := by
  unfold issue
  cases s.cfg.pipeWidth with
  | zero => rfl
  | succ n => rw [issueUpTo, if_neg (Bool.eq_false_iff.mp h)]

/-- Settles O27: the tail stands the window's length after the head. -/
theorem occupancyIsTailMinusHead : Obligations.OccupancyIsTailMinusHead := by
  intro s hinv
  have hs := hinv.robOk
  obtain ⟨htail, -, -⟩ := hs.window
  have hhead := hs.headLt
  refine ⟨?_, hs.robCount_le, hs.robHasSpace_iff, fun hfull => ⟨hs.robTail_eq_robHead hfull, issue_of_full ?_⟩⟩
  · refine Nat.ModEq.add_right_cancel' s.robHead ?_
    calc (s.robTail + s.cfg.robSize - s.robHead + s.robHead) % s.cfg.robSize
        = (s.robTail + s.cfg.robSize) % s.cfg.robSize := by rw [Nat.sub_add_cancel (by omega)]
      _ = (robCount s + s.robHead) % s.cfg.robSize := by
        rw [Nat.add_mod_right, htail, Nat.mod_mod, Nat.add_comm]
  · rw [← Bool.not_eq_true, hs.robHasSpace_iff]
    omega

end

end Sys2Proof.Machine
end

section
/-! PROOFS. The back end over a whole step (49_properties.md R274 to R282): a step without a fault is the six stages one
after the other with Fetch behind them, each keeps `BackendOk`, and the last two write nothing of it. -/

namespace Sys2Proof.Machine

section
variable {α β : Type} {s t : State}

/-! ## A raised fault stands in the fault register -/

/-- Where the operation raises, it leaves a fault (60_exceptions.md R303). -/
def LeavesFault (x : Res α) : Prop := ∀ u, x = .raised u → u.fault ≠ none

theorem leavesFault_ok (a : α) (s : State) : LeavesFault (.ok a s) := fun _ h => nomatch h

theorem leavesFault_raise (c : FaultCode) (s : State) : LeavesFault (raise c s : Res α) := by
  rintro _ ⟨⟩
  exact Option.some_ne_none c

theorem LeavesFault.bind {x : Res α} {f : α → State → Res β} (hx : LeavesFault x) (hf : ∀ a u, LeavesFault (f a u)) :
    LeavesFault (x.bind f) := by
  intro u h
  rcases Res.bind_eq_raised.mp h with h | ⟨a, v, -, h⟩
  · exact hx u h
  · exact hf a v u h

theorem leavesFault_forLanes {f : Nat → State → Res Unit} (hf : ∀ k u, LeavesFault (f k u)) :
    ∀ ks s, LeavesFault (forLanes f ks s)
  | [], s => leavesFault_ok () s
  | k :: ks, s => (hf k s).bind fun _ => leavesFault_forLanes hf ks

theorem leavesFault_commitUpTo : ∀ n s, LeavesFault (commitUpTo n s)
  | 0, s => leavesFault_ok () s
  | n + 1, s => by
    unfold commitUpTo
    split
    · refine LeavesFault.bind (fun u h => ?_) fun x u => leavesFault_commitUpTo n _
      obtain ⟨-, rfl⟩ := robRemoveHead_eq_raised h
      exact Option.some_ne_none _
    · exact leavesFault_ok () s

theorem leavesFault_writebackLane (k : Nat) (s : State) : LeavesFault (writebackLane k s) := by
  unfold writebackLane
  split
  · split
    · exact leavesFault_raise _ _
    · refine LeavesFault.bind (fun u h => ?_) fun _ u => leavesFault_ok () _
      obtain ⟨-, rfl⟩ := robMarkReady_eq_raised h
      exact Option.some_ne_none _
  · exact leavesFault_ok () s

theorem leavesFault_execute (s : State) : LeavesFault (execute s) := by
  refine (leavesFault_forLanes (fun k u v h => absurd h bypassLane_ne_raised) _ s).bind fun _ u => ?_
  refine (leavesFault_forLanes (fun k u v h => ?_) _ u).bind fun _ v => leavesFault_ok () _
  obtain ⟨-, -, -, rfl⟩ := enqueueLane_eq_raised h
  exact Option.some_ne_none _

theorem leavesFault_resolveSource (src : Option Nat) (s : State) : LeavesFault (resolveSource src s) := by
  intro u h
  obtain ⟨m, -, -, rfl⟩ := resolveSource_eq_raised h
  exact Option.some_ne_none _

theorem leavesFault_issueOne (j : Nat) (s : State) : LeavesFault (issueOne j s) := by
  refine LeavesFault.bind ?_ fun x u => LeavesFault.bind (fun v h => ?_) fun g v => leavesFault_ok () _
  · exact (leavesFault_resolveSource _ s).bind fun a u => (leavesFault_resolveSource _ u).bind fun b v => leavesFault_ok _ v
  · obtain ⟨-, rfl⟩ := robInsert_eq_raised h
    exact Option.some_ne_none _

theorem leavesFault_issueUpTo : ∀ n s, LeavesFault (issueUpTo n s)
  | 0, s => leavesFault_ok () s
  | n + 1, s => by
    unfold issueUpTo
    split
    · split
      · exact leavesFault_ok () s
      · exact (leavesFault_issueOne _ s).bind fun _ u => leavesFault_issueUpTo n u
    · exact leavesFault_ok () s

theorem leavesFault_beforeFetch (s : State) : LeavesFault (beforeFetch s) :=
  (leavesFault_commitUpTo _ _).bind fun _ s1 =>
    (leavesFault_forLanes leavesFault_writebackLane _ s1).bind fun _ s2 =>
      (leavesFault_execute s2).bind fun _ s3 =>
        (leavesFault_forLanes (fun _ _ _ h => absurd h scheduleLane_ne_raised) _ s3).bind fun _ s4 =>
          (leavesFault_issueUpTo _ s4).bind fun _ _ => leavesFault_ok () _

/-! ## Decode and Fetch -/

/-- `t` is `s` but for the front end: the fetch and decode latches and the stream's registers. -/
def FrontEndOnly (s t : State) : Prop :=
  t = { s with
    latchFE := t.latchFE, latchID := t.latchID, lastSeq := t.lastSeq, eosSeen := t.eosSeen, haltSeq := t.haltSeq
    halted := t.halted, tracePos := t.tracePos }

theorem FrontEndOnly.trans {u : State} (h : FrontEndOnly s t) (h' : FrontEndOnly t u) : FrontEndOnly s u := by
  unfold FrontEndOnly at h h' ⊢
  rw [h', h]

theorem frontEndOnly_decode (s : State) : FrontEndOnly s (decode s) :=
  decodeLanes_keeps (P := FrontEndOnly s) (fun _ _ _ hu _ _ _ => hu.trans rfl) _ s rfl

theorem frontEndOnly_fetchInto (k : Nat) (item : TraceItem) (s : State) : FrontEndOnly s (fetchInto k item s) := by
  cases item <;> rfl

theorem frontEndOnly_fetch (item : TraceItem) (s : State) : FrontEndOnly s (fetch item s) :=
  fetchLanes_keeps (P := FrontEndOnly s) (fun u k item hu _ _ _ => hu.trans (frontEndOnly_fetchInto k item u)) _ _ s rfl

section
variable (h : FrontEndOnly s t)
include h

theorem FrontEndOnly.sameRecords : SameRecords s t :=
  .of_rob_eq (by rw [h]) (by rw [h]) (by rw [h]) (by rw [h]) (by rw [h]) (by rw [h])

theorem FrontEndOnly.robAt (u : Nat) : t.robAt u = s.robAt u := by rw [h]; rfl

theorem FrontEndOnly.scAt (i : Nat) : t.scAt i = s.scAt i := by rw [h]; rfl

end

theorem ExecOk.congr (hs : ExecOk s) (hcfg : t.cfg = s.cfg) (hrob : t.rob = s.rob)
    (htravel : travellers t = travellers s) : ExecOk t where
  flags := by rw [FlagsOk, hrob]; exact hs.flags
  copies := by
    simp only [htravel, CopyOf, State.robAt, hrob, hcfg]
    exact hs.copies
  distinct := by rw [htravel]; exact hs.distinct

/-! ## The step -/

theorem Inv.decodedOk (hinv : Inv s) : DecodedOk s := by
  obtain ⟨hseqs, -⟩ := hinv.front
  refine ⟨hseqs, fun l hl hv d hd => ?_⟩
  have hshape := hinv.shape
  simp only [wellShaped, latchInRange, Bool.and_eq_true, List.all_eq_true] at hshape
  have hrange : instInRange s.cfg l.inst = true := by
    obtain ⟨⟨⟨-, -, hID⟩, -⟩, -⟩ := hshape
    simpa [hv] using hID l hl
  simp only [instInRange, Bool.and_eq_true] at hrange
  obtain ⟨⟨⟨⟨⟨⟨hdest, -⟩, -⟩, -⟩, -⟩, -⟩, -⟩ := hrange
  rw [Option.mem_def.mp hd] at hdest
  exact of_decide_eq_true hdest

/-- The tick begins with what the invariant says; the cycle count is no part of it. -/
theorem Inv.backendOk_counted (hinv : Inv s) : BackendOk { s with cycleCount := s.cycleCount + 1 } where
  widths := { widthsOk_of_wellShaped hinv.shape with }
  rob := hinv.robOk.of_sameRecords (.of_rob_eq rfl rfl rfl rfl rfl rfl)
  exec := hinv.execOk.congr rfl rfl rfl
  decoded := ⟨hinv.decodedOk.seqs, hinv.decodedOk.dests⟩

/-- A step without a fault, on a running machine: the stages one after the other. -/
theorem stages_of_step (h : step s = .next t) (hfault : t.fault = none) (hrun : running s = true) :
    ∃ s1 s2 s3 s4 s5, commit { s with cycleCount := s.cycleCount + 1 } = .ok () s1 ∧ writeback s1 = .ok () s2 ∧
      execute s2 = .ok () s3 ∧ schedule s3 = .ok () s4 ∧ issue s4 = .ok () s5 ∧ FrontEndOnly s5 t := by
  rw [step_eq_clock] at h
  obtain ⟨-, rfl⟩ := clock_eq_next.mp h
  rcases tick_cases (nextItem s) s with ⟨hstop, -⟩ | ⟨-, u, hu, htick⟩ | ⟨-, u, hu, htick⟩
  · rw [hrun] at hstop
    cases hstop
  · obtain ⟨s1, s2, s3, s4, s5, h1, h2, h3, h4, h5, rfl⟩ := beforeFetch_eq_ok hu
    rw [htick]
    exact ⟨s1, s2, s3, s4, s5, h1, h2, h3, h4, h5, (frontEndOnly_decode s5).trans (frontEndOnly_fetch _ _)⟩
  · rw [htick] at hfault
    exact absurd hfault (leavesFault_beforeFetch s u hu)

theorem eq_of_step_of_not_running (h : step s = .next t) (hstop : running s = false) : t = s := by
  rw [step_eq_clock] at h
  obtain ⟨-, rfl⟩ := clock_eq_next.mp h
  rw [tick, hstop]
  rfl

/-! ## The configuration is no stage's to write -/

theorem commit_cfg (h : commit s = .ok () t) : t.cfg = s.cfg := by
  refine commitUpTo_keeps (P := fun u => u.cfg = s.cfg) (fun u x v hu _ hx => ?_) _ s t rfl h
  obtain ⟨-, -, -, rfl⟩ := robRemoveHead_eq_ok hx
  rw [retire_eq]
  exact hu

theorem writeback_cfg (h : writeback s = .ok () t) : t.cfg = s.cfg :=
  writeback_keeps (P := fun u => u.cfg = s.cfg) (fun _ _ _ _ hw hu => hw.sameRecords.cfg.trans hu) rfl h

theorem execute_cfg (h : execute s = .ok () t) : t.cfg = s.cfg := (carried_execute h).sameRecords.cfg

theorem schedule_cfg (h : schedule s = .ok () t) : t.cfg = s.cfg :=
  schedule_keeps (P := fun _ u => u.cfg = s.cfg) (fun _ _ hu => hu)
    (fun _ _ _ _ _ hg hu => hg.sameRecords.cfg.trans hu) rfl h

theorem issue_cfg (h : issue s = .ok () t) : t.cfg = s.cfg :=
  issue_keeps (P := fun u => u.cfg = s.cfg) (fun _ _ _ _ _ hx hu => hx.cfg.trans hu) rfl h

theorem cfg_of_step (h : step s = .next t) (hfault : t.fault = none) : t.cfg = s.cfg := by
  cases hrun : running s with
  | false => rw [eq_of_step_of_not_running h hrun]
  | true =>
    obtain ⟨s1, s2, s3, s4, s5, h1, h2, h3, h4, h5, hfront⟩ := stages_of_step h hfault hrun
    rw [hfront.sameRecords.cfg, issue_cfg h5, schedule_cfg h4, execute_cfg h3, writeback_cfg h2, commit_cfg h1]

/-! ## The back end over a step -/

/-- Through the first three stages. -/
theorem backendOk_of_execute (hs : BackendOk s) {s1 s2 s3 : State} (h1 : commit s = .ok () s1)
    (h2 : writeback s1 = .ok () s2) (h3 : execute s2 = .ok () s3) : BackendOk s1 ∧ BackendOk s2 ∧ BackendOk s3 := by
  have hs1 := commit_keeps (fun _ hu => hu.rob) (fun _ _ hr => hr.backendOk) hs h1
  have hs2 := writeback_keeps (fun _ _ _ _ hw => hw.backendOk) hs1 h2
  exact ⟨hs1, hs2, (carried_execute h3).backendOk hs2⟩

/-- What `Inv` says of the ROB, the RAT and the copies holds after every step without a fault. -/
theorem Inv.backend_of_step (hinv : Inv s) (h : step s = .next t) (hfault : t.fault = none) : RobOk t ∧ ExecOk t := by
  cases hrun : running s with
  | false =>
    obtain rfl := eq_of_step_of_not_running h hrun
    exact ⟨hinv.robOk, hinv.execOk⟩
  | true =>
    obtain ⟨s1, s2, s3, s4, s5, h1, h2, h3, h4, h5, hfront⟩ := stages_of_step h hfault hrun
    obtain ⟨-, -, hs3⟩ := backendOk_of_execute hinv.backendOk_counted h1 h2 h3
    have hs4 := schedule_backendOk hs3 h4
    have hs5 := issue_keeps (fun _ _ _ _ hj hx hu => hx.backendOk hu hj) hs4 h5
    exact ⟨hs5.rob.of_sameRecords hfront.sameRecords,
      hs5.exec.congr hfront.sameRecords.cfg (by rw [hfront]) (by rw [hfront]; rfl)⟩

/-! ## The properties of the back end, one by one -/

/-- Settles O43: the window of the state after the step, read by slots. -/
theorem everyStepKeepsTheWindow : Obligations.EveryStepKeepsTheWindow := by
  intro s t hinv h hfault
  obtain ⟨ht, -⟩ := hinv.backend_of_step h hfault
  refine ⟨fun k hk => ht.valid_fromHead hk, fun k hk => ?_, fun hne => ?_⟩
  · have hnext := ht.seq_fromHead hk
    have hthis := ht.seq_fromHead (k := k) (by omega)
    rw [slotFromHead] at hnext hthis
    rw [hnext, hthis]
    rfl
  · have hfirst := ht.seq_fromHead (Nat.pos_of_ne_zero hne)
    rwa [slotFromHead, Nat.add_zero, Nat.mod_eq_of_lt ht.headLt] at hfirst

/-- Settles O44: a mapping names a writer of its register, so an unwritten register has none and two registers have two. -/
theorem everyStepKeepsRatSoundness : Obligations.EveryStepKeepsRatSoundness := by
  intro s t hinv h hfault
  obtain ⟨ht, -⟩ := hinv.backend_of_step h hfault
  obtain ⟨hmapped, hwriter⟩ := ht.rat
  have hdest {r g : Nat} (hr : r < t.cfg.numArchRegs) (hg : t.ratAt r = some g) :
      (t.robAt g).valid = true ∧ (t.robAt g).inst.dest = some r :=
    let ⟨hv, hd, _⟩ := hmapped r hr g hg
    ⟨hv, hd⟩
  refine ⟨⟨hmapped, hwriter⟩, fun r hr => ⟨fun hnone u hu hv hd => hwriter u hu hv r hd hnone, fun hnot => ?_⟩,
    fun r hr q hq g hrg hqg => ?_⟩
  · cases hg : t.ratAt r with
    | none => rfl
    | some g =>
      obtain ⟨hv, hd⟩ := hdest hr hg
      exact absurd hd (hnot g (ht.slot_lt hv) hv)
  · exact Option.some.inj ((hdest hr hrg).2.symm.trans (hdest hq hqg).2)

/-- Settles O46: the part of `FlagsOk` on slots in use. -/
theorem everyStepKeepsFlagImplications : Obligations.EveryStepKeepsFlagImplications := by
  intro s t hinv h hfault x hx
  obtain ⟨-, ht⟩ := hinv.backend_of_step h hfault
  exact (ht.flags x hx).1

/-- Settles O47: each copy's slot, and the copies' numbers. -/
theorem everyStepKeepsTravellingCopies : Obligations.EveryStepKeepsTravellingCopies := by
  intro s t hinv h hfault
  obtain ⟨-, ht⟩ := hinv.backend_of_step h hfault
  refine ⟨fun c hc => ?_, ht.distinct⟩
  obtain ⟨u, hu, htag, hvalid, hexec, hready, hseq, -⟩ := ht.copies c hc
  exact ⟨u, hu, htag, hvalid, hseq, hexec, hready⟩

/-! ## In-order scheduling -/

/-- A machine that has stopped without a fault holds no copy: everything fetched has retired. -/
theorem Inv.no_travellers_of_not_running (hinv : Inv s) (hstop : running s = false) : travellers s = [] := by
  have hhalted : s.halted = true := by simpa [running, hinv.noFault] using hstop
  obtain ⟨hbefore, hafter⟩ := hinv.halt
  obtain ⟨-, -, hlast⟩ := hinv.front
  have heos : s.eosSeen = true := by
    by_contra heos
    obtain ⟨-, hrunning, -⟩ := hbefore (Bool.not_eq_true _ ▸ heos)
    exact Bool.false_ne_true (hrunning.symm.trans hhalted)
  obtain ⟨-, hdone⟩ := hafter heos
  have hretired : s.retiredCount = s.lastSeq := of_decide_eq_true (hdone.symm.trans hhalted)
  refine List.eq_nil_iff_forall_not_mem.mpr fun c hc => ?_
  obtain ⟨u, -, -, hvalid, -⟩ := hinv.execOk.copies c hc
  obtain ⟨k, hk, -⟩ := hinv.robOk.place_of_valid hvalid
  omega

/-- In order, Schedule meets the executing slots as the oldest ones and an empty latch. -/
theorem inOrderLanes_before_schedule (hs : BackendOk s) (hprefix : InOrderPrefix s) {s1 s2 s3 : State}
    (h1 : commit s = .ok () s1) (h2 : writeback s1 = .ok () s2) (h3 : execute s2 = .ok () s3) : InOrderLanes s3 0 := by
  obtain ⟨hs1, hs2, hs3⟩ := backendOk_of_execute hs h1 h2 h3
  have hp1 : InOrderPrefix s1 := And.right <| commit_keeps (P := fun u => RobOk u ∧ InOrderPrefix u) (fun _ hu => hu.1)
    (fun _ _ hr hu => ⟨hr.robOk hu.1, hr.inOrderPrefix hu.1 hu.2⟩) ⟨hs.rob, hprefix⟩ h1
  have hp2 : InOrderPrefix s2 := writeback_keeps (P := InOrderPrefix)
    (fun _ _ _ _ hw hu => hu.of_sameRecords hw.sameRecords hw.exec_eq) hp1 h2
  have hcarried := carried_execute h3
  have hempty (i : Nat) : (s3.scAt i).valid = false :=
    execute_empties_latchSC hs2.widths (writeback_empties_latchEX hs1.widths.latchEX h2) h3 i
  exact ⟨hs3, hp2.of_sameRecords hcarried.sameRecords hcarried.exec_eq, fun i _ => hempty i,
    fun i j _ hi => absurd ((hempty i).symm.trans hi) (by decide)⟩

theorem Issued.keeps_inOrder {u v : State} {j : Nat} {x : Inst} (h : Issued u v j x)
    (hj : oldestLane u.latchID = some j) (hu : BackendOk u ∧ InOrderPrefix u ∧ u.latchSC = s.latchSC) :
    BackendOk v ∧ InOrderPrefix v ∧ v.latchSC = s.latchSC :=
  let ⟨hback, hprefix, hSC⟩ := hu
  ⟨h.backendOk hback hj, h.inOrderPrefix hback.rob hprefix, h.latchSC.trans hSC⟩

/-- Out of order, `InOrderPrefix` claims nothing. -/
theorem inOrderPrefix_of_ooo (h : s.cfg.schedPolicy ≠ .inOrder) : InOrderPrefix s := fun hpolicy => absurd hpolicy h

/-- One step of the in-order policy on a running machine. -/
theorem Inv.inOrder_of_step (hinv : Inv s) (hprefix : InOrderPrefix s) (h : step s = .next t) (hfault : t.fault = none)
    (hrun : running s = true) (hpolicy : s.cfg.schedPolicy = .inOrder) :
    InOrderPrefix t ∧ ∀ i j, i < j → (t.scAt i).valid = true → (t.scAt j).valid = true →
      (t.scAt i).inst.seq < (t.scAt j).inst.seq := by
  obtain ⟨s1, s2, s3, s4, s5, h1, h2, h3, h4, h5, hfront⟩ := stages_of_step h hfault hrun
  have hs3 := inOrderLanes_before_schedule hinv.backendOk_counted hprefix h1 h2 h3
  have hcfg : s3.cfg = s.cfg := by rw [execute_cfg h3, writeback_cfg h2, commit_cfg h1]
  have hs4 := schedule_inOrderLanes hs3 (hcfg ▸ hpolicy) h4
  obtain ⟨-, hp5, hSC⟩ := issue_keeps (P := fun u => BackendOk u ∧ InOrderPrefix u ∧ u.latchSC = s4.latchSC)
    (fun _ _ _ _ hj hx hu => hx.keeps_inOrder hj hu) ⟨hs4.backend, hs4.executing, rfl⟩ h5
  have hlane (i : Nat) : t.scAt i = s4.scAt i := by rw [hfront.scAt, State.scAt, hSC, State.scAt]
  refine ⟨hp5.of_sameRecords hfront.sameRecords fun u => by rw [hfront.robAt], ?_⟩
  simp only [hlane]
  exact hs4.sorted

/-- Settles O48: in order the stages before Schedule leave an empty latch, so what it holds after the step was taken in this
tick, oldest first; a machine that has stopped holds nothing. -/
theorem everyStepKeepsInOrderScheduling : Obligations.EveryStepKeepsInOrderScheduling := by
  intro s t hinv hprefix h hfault
  cases hrun : running s with
  | false =>
    obtain rfl := eq_of_step_of_not_running h hrun
    refine ⟨hprefix, fun _ i j _ hi _ => ?_⟩
    have hmem : (t.scAt i).inst ∈ travellers t :=
      List.mem_append_left _ (List.mem_append_left _ (inst_mem_laneRecords hi))
    rw [hinv.no_travellers_of_not_running hrun] at hmem
    cases hmem
  | true =>
    by_cases hpolicy : s.cfg.schedPolicy = .inOrder
    · obtain ⟨ht, hsorted⟩ := hinv.inOrder_of_step hprefix h hfault hrun hpolicy
      exact ⟨ht, fun _ => hsorted⟩
    · refine ⟨inOrderPrefix_of_ooo ?_, fun hin => absurd hin hpolicy⟩
      rwa [cfg_of_step h hfault]

end

end Sys2Proof.Machine
end

section
/-! PROOFS. A machine with at most one instruction in it, in the first entry of every array (48_instruction_classes.md R259,
49_properties.md R290): the arrays, what of them holds the instruction, and the stages that have nothing to do. -/

namespace Sys2Proof.Machine

/-! ## Arrays with only a first entry -/

section
variable {α : Type} {n : Nat} {d a : α}

theorem getD_set_replicate (n k : Nat) (d a : α) :
    ((List.replicate n d).set 0 a).getD k d = if k = 0 ∧ 0 < n then a else d := by
  rw [getD_set, List.length_replicate]
  refine if_congr Iff.rfl rfl ?_
  rw [List.getD_eq_getElem?_getD]
  exact List.getElem?_getD_replicate_default_eq ..

theorem filterMap_set_replicate {β : Type} (f : α → Option β) (hd : f d = none) (hn : 0 < n) :
    ((List.replicate n d).set 0 a).filterMap f = (f a).toList := by
  obtain ⟨m, rfl⟩ := Nat.exists_eq_add_of_lt hn
  have hrest : (List.replicate (0 + m) d).filterMap f = [] :=
    List.filterMap_eq_nil_iff.mpr fun x hx => List.eq_of_mem_replicate hx ▸ hd
  rw [List.replicate_succ, List.set_cons_zero]
  cases ha : f a with
  | none => rw [List.filterMap_cons_none ha, hrest]; rfl
  | some b => rw [List.filterMap_cons_some ha, hrest]; rfl

end

/-- The latch has `n` lanes; its first holds what `o` says, the others nothing. -/
def HoldsFirst (n : Nat) (o : Option Inst) (latch : List Lane) : Prop :=
  ∃ l : Lane, latch = (List.replicate n .empty).set 0 l ∧ l.stall = false ∧ l.record = o

theorem holdsFirst_replicate (n : Nat) : HoldsFirst n none (List.replicate n .empty) :=
  ⟨.empty, by rw [List.set_replicate_self], rfl, rfl⟩

theorem Lane.valid_of_record {l : Lane} {x : Inst} (h : l.record = some x) : l.valid = true ∧ l.inst = x := by
  unfold Lane.record at h
  split at h
  next hv => exact ⟨hv, Option.some.inj h⟩
  next => cases h

theorem Lane.invalid_of_record {l : Lane} (h : l.record = none) : l.valid = false := by
  unfold Lane.record at h
  split at h
  next => cases h
  next hv => simpa using hv

theorem ExeqSlot.valid_of_record {x : ExeqSlot} {y : Inst} (h : x.record = some y) : x.valid = true ∧ x.inst = y := by
  unfold ExeqSlot.record at h
  split at h
  next hv => exact ⟨hv, Option.some.inj h⟩
  next => cases h

theorem ExeqSlot.invalid_of_record {x : ExeqSlot} (h : x.record = none) : x.valid = false := by
  unfold ExeqSlot.record at h
  split at h
  next => cases h
  next hv => simpa using hv

section
variable {n : Nat} {o : Option Inst} {latch : List Lane} (h : HoldsFirst n o latch)
include h

theorem HoldsFirst.length : latch.length = n := by
  obtain ⟨l, rfl, -⟩ := h
  rw [List.length_set, List.length_replicate]

theorem HoldsFirst.stall (k : Nat) : (latch.getD k .empty).stall = false := by
  obtain ⟨l, rfl, hl, -⟩ := h
  rw [getD_set_replicate]
  split
  · exact hl
  · rfl

theorem HoldsFirst.valid_of_ne {k : Nat} (hk : k ≠ 0) : (latch.getD k .empty).valid = false := by
  obtain ⟨l, rfl, -⟩ := h
  rw [getD_set_replicate, if_neg fun hand => hk hand.1]
  rfl

theorem HoldsFirst.record (hn : 0 < n) : (latch.getD 0 .empty).record = o := by
  obtain ⟨l, rfl, -, hl⟩ := h
  rw [getD_set_replicate, if_pos ⟨rfl, hn⟩, hl]

theorem HoldsFirst.set {l : Lane} (hl : l.stall = false) : HoldsFirst n l.record (latch.set 0 l) := by
  obtain ⟨m, rfl, -⟩ := h
  exact ⟨l, List.set_set .., hl, rfl⟩

theorem HoldsFirst.records (hn : 0 < n) : laneRecords latch = o.toList := by
  obtain ⟨l, rfl, -, rfl⟩ := h
  rw [laneRecords_eq_filterMap, filterMap_set_replicate _ rfl hn]

theorem HoldsFirst.latchHolds (hn : 0 < n) (q : Nat) :
    latchHolds latch q = true ↔ ∃ x, o = some x ∧ x.seq = q := by
  rw [latchHolds_iff, latchSeqs_eq_map, h.records hn]
  simp

theorem HoldsFirst.inRange {cfg : Config} (hrange : ∀ x, o = some x → instInRange cfg x = true) :
    latchInRange cfg n latch = true := by
  simp only [latchInRange, h.length, beq_self_eq_true, Bool.true_and, List.all_eq_true]
  refine forall_lane_iff.mpr fun k hk => ?_
  by_cases hzero : k = 0
  · subst hzero
    cases ho : o with
    | none => rw [Lane.invalid_of_record (ho ▸ h.record (h.length ▸ hk)), Bool.not_false, Bool.true_or]
    | some x =>
      obtain ⟨-, hinst⟩ := Lane.valid_of_record (ho ▸ h.record (h.length ▸ hk))
      rw [hinst, hrange x ho, Bool.or_true]
  · rw [h.valid_of_ne hzero]
    rfl

end

theorem HoldsFirst.empty {n : Nat} {latch : List Lane} (h : HoldsFirst n none latch) (k : Nat) :
    (latch.getD k .empty).valid = false := by
  by_cases hk : k = 0
  · subst hk
    by_cases hn : 0 < n
    · exact Lane.invalid_of_record (h.record hn)
    · rw [List.getD_eq_default _ _ (by rw [h.length]; omega)]
      rfl
  · exact h.valid_of_ne hk

theorem oldestLane_of_empty {latch : List Lane} (h : ∀ k, (latch.getD k .empty).valid = false) :
    oldestLane latch = none := by
  cases hj : oldestLane latch with
  | none => rfl
  | some j =>
    obtain ⟨hvalid, -⟩ := oldestLane_eq_some hj
    exact absurd ((h j).symm.trans hvalid) (by decide)

theorem HoldsFirst.oldestLane {n : Nat} {x : Inst} {latch : List Lane} (h : HoldsFirst n (some x) latch) (hn : 0 < n) :
    oldestLane latch = some 0 := by
  obtain ⟨hvalid, -⟩ := Lane.valid_of_record (h.record hn)
  cases hj : Machine.oldestLane latch with
  | none =>
    refine absurd (List.mem_map.mpr ⟨_, lane_mem_of_valid hvalid, ?_⟩)
      (oldest_eq_none.mp hj (latch.getD 0 .empty).inst.seq)
    rw [if_pos hvalid]
  | some j =>
    obtain ⟨hjv, -⟩ := oldestLane_eq_some hj
    by_contra hne
    exact absurd ((h.valid_of_ne (k := j) fun he => hne (he ▸ rfl)).symm.trans hjv) (by decide)

/-! ## Stages with nothing to do -/

theorem forLanes_idle {f : Nat → State → Res Unit} {s : State} (hf : ∀ k, f k s = .ok () s) :
    ∀ ks, forLanes f ks s = .ok () s
  | [] => rfl
  | k :: ks => by rw [forLanes, hf k, Res.bind_ok, forLanes_idle hf ks]

/-- A loop of which only the first lane has something to do. -/
theorem forLanes_first {f : Nat → State → Res Unit} {s t : State} {n : Nat} (hn : 0 < n) (hfirst : f 0 s = .ok () t)
    (hf : ∀ k ≠ 0, f k t = .ok () t) : forLanes f (List.range n) s = .ok () t := by
  have hrest : ∀ ks : List Nat, 0 ∉ ks → forLanes f ks t = .ok () t := by
    intro ks hks
    induction ks with
    | nil => rfl
    | cons k ks ih =>
      rw [List.mem_cons, not_or] at hks
      rw [forLanes, hf k (Ne.symm hks.1), Res.bind_ok, ih hks.2]
  obtain ⟨m, rfl⟩ := Nat.exists_eq_add_of_lt hn
  rw [List.range_succ_eq_map, forLanes, hfirst, Res.bind_ok, hrest _ (by simp)]

theorem commitUpTo_idle {s : State} (hready : robHeadIsReady s = false) (n : Nat) : commitUpTo n s = .ok () s := by
  cases n with
  | zero => rfl
  | succ n => rw [commitUpTo, if_neg (Bool.eq_false_iff.mp hready)]

theorem writebackLane_idle {s : State} {k : Nat} (hfree : (s.exAt k).valid = false) : writebackLane k s = .ok () s := by
  rw [writebackLane, if_neg (Bool.eq_false_iff.mp hfree)]

theorem bypassLane_idle {s : State} {i : Nat} (hidle : (s.scAt i).valid = true → lat s.cfg (s.scAt i).inst.op ≠ 1) :
    bypassLane i s = .ok () s := by
  rw [bypassLane, if_neg]
  simpa using hidle

theorem enqueueLane_idle {s : State} {i : Nat} (hfree : (s.scAt i).valid = false) : enqueueLane i s = .ok () s := by
  rw [enqueueLane, hfree]
  rfl

theorem exeqCycle_idle {s : State} (hempty : ∀ x ∈ s.exeq, x.valid = false) : exeqCycle s = s := by
  have hsame : s.exeq.map ageSlot = s.exeq := by
    refine (List.map_congr_left fun x hx => ?_).trans (List.map_id _)
    rw [ageSlot, hempty x hx]
    rfl
  rw [exeqCycle, hsame]

theorem drainUpTo_idle {s : State} (hwait : ∀ x ∈ s.exeq, x.finished = false) (n : Nat) : drainUpTo n s = s := by
  have hnone : exeqRemoveFinished s = none := by
    have hold : oldestFinished s = none := by
      refine oldest_eq_none.mpr fun b hb => ?_
      obtain ⟨x, hx, hkey⟩ := List.mem_map.mp hb
      rw [hwait x hx] at hkey
      cases hkey
    rw [exeqRemoveFinished, hold]
  cases n with
  | zero => rfl
  | succ n =>
    rw [drainUpTo, hnone]
    cases freeExLane s <;> rfl

theorem not_finished_of_invalid {x : ExeqSlot} (hx : x.valid = false) : x.finished = false := by
  rw [ExeqSlot.finished, hx]
  rfl

theorem scheduleLane_idle {s : State} {i : Nat} (hnone : select s = none) : scheduleLane i s = .ok () s := by
  rw [scheduleLane, hnone]
  exact ite_self _

theorem issueUpTo_idle {s : State} (hnone : oldestLane s.latchID = none) (n : Nat) : issueUpTo n s = .ok () s := by
  cases n with
  | zero => rfl
  | succ n =>
    rw [issueUpTo, hnone]
    exact ite_self _

theorem decodeLanes_idle {s : State} (hnone : oldestLane s.latchFE = none) : ∀ is, decodeLanes is s = s
  | [] => rfl
  | i :: is => by
    rw [decodeLanes, hnone, decodeLanes_idle hnone is]
    exact ite_self _

theorem fetchLanes_ended {s : State} (hend : s.eosSeen = true) (ks : List Nat) (first : Option TraceItem) :
    fetchLanes ks first s = s := by
  cases ks with
  | nil => rfl
  | cons k ks => rw [fetchLanes, if_pos hend]

theorem writeback_of_empty {s : State} (hEX : ∀ k, (s.exAt k).valid = false) : writeback s = .ok () s :=
  forLanes_idle (fun k => writebackLane_idle (hEX k)) _

theorem mem_set_replicate {α : Type} {x a d : α} {n : Nat} (hx : x ∈ (List.replicate n d).set 0 a) : x = d ∨ x = a :=
  (List.mem_or_eq_of_mem_set hx).imp_left List.eq_of_mem_replicate

/-- With no scheduled record, Execute only ages and drains the EXEQ. -/
theorem execute_of_latchSC_empty {s : State} (hSC : ∀ k, (s.scAt k).valid = false) :
    execute s = .ok () (drainUpTo s.latchEX.length (Machine.exeqCycle s)) := by
  rw [execute, forLanes_idle (fun k => bypassLane_idle fun hv => absurd ((hSC k).symm.trans hv) (by decide)),
    Res.bind_ok, forLanes_idle fun k => enqueueLane_idle (hSC k), Res.bind_ok]

theorem execute_of_empty {s : State} (hSC : ∀ k, (s.scAt k).valid = false)
    (hexeq : ∀ x ∈ s.exeq, x.valid = false) : execute s = .ok () s := by
  rw [execute_of_latchSC_empty hSC, exeqCycle_idle hexeq,
    drainUpTo_idle fun x hx => not_finished_of_invalid (hexeq x hx)]

theorem schedule_of_select {s : State} (hnone : select s = none) : schedule s = .ok () s :=
  forLanes_idle (fun _ => scheduleLane_idle hnone) _

theorem issue_of_empty {s : State} (hID : ∀ k, (s.idAt k).valid = false) : issue s = .ok () s :=
  issueUpTo_idle (oldestLane_of_empty hID) _

theorem decode_of_empty {s : State} (hFE : ∀ k, (s.feAt k).valid = false) : decode s = s :=
  decodeLanes_idle (oldestLane_of_empty hFE) _

/-! ## The machine -/

/-- Where the one instruction is: the record each array holds, and the ROB's first slot. -/
structure Occupancy where
  fe : Option Inst := none
  id : Option Inst := none
  sc : Option Inst := none
  ex : Option Inst := none
  queue : Option Inst := none
  slot : RobSlot := .empty

/-- A machine that holds what `o` says and nothing else, its window at the start of the ROB. -/
structure Solo (cfg : Config) (o : Occupancy) (s : State) : Prop where
  config : s.cfg = cfg
  latchFE : HoldsFirst cfg.pipeWidth o.fe s.latchFE
  latchID : HoldsFirst cfg.pipeWidth o.id s.latchID
  latchSC : HoldsFirst cfg.pipeWidth o.sc s.latchSC
  latchEX : HoldsFirst cfg.wbWidth o.ex s.latchEX
  exeq : ∃ x : ExeqSlot, s.exeq = (List.replicate cfg.exeqSize .empty).set 0 x ∧ x.record = o.queue
  rob : s.rob = (List.replicate cfg.robSize .empty).set 0 o.slot
  ratLength : s.rat.length = cfg.numArchRegs
  rat : ∀ r g, s.ratAt r = some g → g = 0 ∧ o.slot.valid = true
  robHead : s.robHead = 0
  robTail : s.robTail = if o.slot.valid then 1 % cfg.robSize else 0

/-- The records the machine holds. -/
def Occupancy.records (o : Occupancy) : List Inst :=
  o.fe.toList ++ o.id.toList ++ o.sc.toList ++ o.ex.toList ++ o.queue.toList ++
    if o.slot.valid then [o.slot.inst] else []

/-- The run state and the counters. -/
structure Run where
  lastSeq : Nat
  eosSeen : Bool
  haltSeq : Nat
  halted : Bool
  fault : Option FaultCode
  cycleCount : Nat
  retiredCount : Nat

/-- The run state and the counters of a state. -/
def State.run (s : State) : Run :=
  ⟨s.lastSeq, s.eosSeen, s.haltSeq, s.halted, s.fault, s.cycleCount, s.retiredCount⟩

theorem wbWidth_pos (cfg : Config) : 0 < cfg.wbWidth := cfg.one_le_pipeWidth.trans cfg.pipeWidth_le_wbWidth

section
variable {cfg : Config} {o : Occupancy} {s t : State}

theorem solo_resetWith (cfg : Config) (trace : List Word) : Solo cfg {} (State.resetWith cfg trace) where
  config := rfl
  latchFE := holdsFirst_replicate _
  latchID := holdsFirst_replicate _
  latchSC := holdsFirst_replicate _
  latchEX := holdsFirst_replicate _
  exeq := ⟨.empty, (List.set_replicate_self ..).symm, rfl⟩
  rob := (List.set_replicate_self ..).symm
  ratLength := List.length_replicate
  rat r g h := by rw [State.ratAt_resetWith] at h; cases h
  robHead := rfl
  robTail := rfl

section
variable (h : Solo cfg o s)
include h

theorem Solo.robAt (u : Nat) : s.robAt u = if u = 0 then o.slot else .empty := by
  rw [State.robAt, h.rob, getD_set_replicate]
  exact if_congr (and_iff_left cfg.one_le_robSize) rfl rfl

theorem Solo.exeqInvalid (hq : o.queue = none) : ∀ x ∈ s.exeq, x.valid = false := by
  obtain ⟨y, hexeq, hy⟩ := h.exeq
  intro x hx
  rw [hexeq] at hx
  rcases mem_set_replicate hx with rfl | rfl
  · rfl
  · exact ExeqSlot.invalid_of_record (hy.trans hq)

theorem Solo.wellShaped (hrange : ∀ x ∈ o.records, instInRange cfg x = true) : wellShaped s = true := by
  obtain ⟨y, hexeq, hy⟩ := h.exeq
  have hhead : s.robHead < cfg.robSize := h.robHead ▸ cfg.one_le_robSize
  have htail : s.robTail < cfg.robSize := by
    rw [h.robTail]
    split
    · exact Nat.mod_lt _ cfg.one_le_robSize
    · exact cfg.one_le_robSize
  have hrat : s.rat.all (optBelow cfg.robSize) = true := by
    refine List.all_eq_true.mpr fun e he => ?_
    obtain ⟨r, hr, rfl⟩ := List.mem_iff_getElem.mp he
    cases hg : s.rat[r] with
    | none => rfl
    | some g =>
      obtain ⟨rfl, -⟩ := h.rat r g (by rw [State.ratAt, List.getD_eq_getElem _ _ hr, hg])
      exact decide_eq_true cfg.one_le_robSize
  have hrob : s.rob.all (fun x => !x.valid || instInRange cfg x.inst) = true := by
    refine List.all_eq_true.mpr fun x hx => ?_
    rw [h.rob] at hx
    rcases mem_set_replicate hx with rfl | rfl
    · rfl
    · cases hv : o.slot.valid with
      | false => rfl
      | true => exact hrange _ (by simp [Occupancy.records, hv])
  have hqueue : s.exeq.all (fun x => !x.valid || instInRange cfg x.inst) = true := by
    refine List.all_eq_true.mpr fun x hx => ?_
    rw [hexeq] at hx
    rcases mem_set_replicate hx with rfl | rfl
    · rfl
    · cases hv : x.valid with
      | false => rfl
      | true => exact hrange _ (by simp [Occupancy.records, ← hy, ExeqSlot.record_of_valid hv])
  have hFE := h.latchFE.inRange fun x hx => hrange x (by simp [Occupancy.records, hx])
  have hID := h.latchID.inRange fun x hx => hrange x (by simp [Occupancy.records, hx])
  have hSC := h.latchSC.inRange fun x hx => hrange x (by simp [Occupancy.records, hx])
  have hEX := h.latchEX.inRange fun x hx => hrange x (by simp [Occupancy.records, hx])
  simp only [Machine.wellShaped, h.config, hrat, hrob, hqueue, h.ratLength, hFE, hID, hSC, hEX, decide_eq_true hhead,
    decide_eq_true htail]
  simp [h.rob, hexeq]

theorem Solo.robHeadIsReady_eq : robHeadIsReady s = (o.slot.valid && o.slot.ready) := by
  rw [robHeadIsReady, h.robHead, h.robAt, if_pos rfl]

theorem Solo.commit_idle (hslot : (o.slot.valid && o.slot.ready) = false) : commit s = .ok () s :=
  commitUpTo_idle (h.robHeadIsReady_eq.trans hslot) _

theorem Solo.writeback_idle (hex : o.ex = none) : writeback s = .ok () s :=
  writeback_of_empty (hex ▸ h.latchEX).empty

theorem Solo.execute_idle (hsc : o.sc = none) (hq : o.queue = none) : execute s = .ok () s :=
  execute_of_empty (hsc ▸ h.latchSC).empty (h.exeqInvalid hq)

theorem Solo.select_eq_none (hslot : (o.slot.valid && !o.slot.exec) = false) : select s = none := by
  cases hg : select s with
  | none => rfl
  | some g =>
    obtain ⟨-, hcand, -⟩ := select_eq_some hg
    rw [candidate, h.robAt] at hcand
    split at hcand
    · exact absurd (hslot.symm.trans hcand) (by decide)
    · cases hcand

theorem Solo.schedule_idle (hslot : (o.slot.valid && !o.slot.exec) = false) : schedule s = .ok () s :=
  schedule_of_select (h.select_eq_none hslot)

theorem Solo.issue_idle (hid : o.id = none) : issue s = .ok () s :=
  issue_of_empty (hid ▸ h.latchID).empty

theorem Solo.decode_idle (hfe : o.fe = none) : decode s = s :=
  decode_of_empty (hfe ▸ h.latchFE).empty

end

end

end Sys2Proof.Machine
end

section
/-! PROOFS. What each stage does for the one instruction of a machine that holds no other. -/

namespace Sys2Proof.Machine

/-- With nothing mapped every source is ready at once (R187). -/
theorem resolveSource_unmapped {s : State} (hrat : ∀ r, s.ratAt r = none) (src : Option Nat) :
    resolveSource src s = .ok (none, true) s := by
  cases src with
  | none => rfl
  | some r => rw [resolveSource, ratGetRemap, hrat r]

/-- The record that Issue makes of a record in a machine with nothing else. -/
def Inst.issuedAlone (x : Inst) : Inst :=
  { x with src1Tag := none, src1Ready := true, src2Tag := none, src2Ready := true, drTag := some 0 }

section
variable {cfg : Config} {o : Occupancy} {s : State} {x : Inst}

section
variable (h : Solo cfg o s)
include h

/-! ## Decode and Issue -/

theorem Solo.decode_first (hfe : o.fe = some x) (hid : o.id = none) :
    ∃ t, decode s = t ∧ Solo cfg { o with fe := none, id := some x } t ∧ t.run = s.run ∧
      nextItem t = nextItem s := by
  have hFE : HoldsFirst cfg.pipeWidth (some x) s.latchFE := hfe ▸ h.latchFE
  have hID : HoldsFirst cfg.pipeWidth none s.latchID := hid ▸ h.latchID
  obtain ⟨-, hinst⟩ := Lane.valid_of_record (hFE.record cfg.one_le_pipeWidth)
  have hsolo : Solo cfg { o with fe := none, id := some x } (moveToID 0 0 s) :=
    { h with
      latchFE := h.latchFE.set (l := { s.feAt 0 with valid := false }) (h.latchFE.stall 0)
      latchID := hinst ▸ h.latchID.set (l := { s.idAt 0 with valid := true, inst := (s.feAt 0).inst })
        (h.latchID.stall 0) }
  refine ⟨_, ?_, hsolo, rfl, rfl⟩
  obtain ⟨m, hm⟩ := Nat.exists_eq_add_of_lt cfg.one_le_pipeWidth
  have hlane : ((s.idAt 0).valid || (s.idAt 0).stall) = false := by
    rw [State.idAt, hID.empty 0, hID.stall 0, Bool.or_false]
  rw [decode, h.config, hm, List.range_succ_eq_map, decodeLanes, hlane, hFE.oldestLane cfg.one_le_pipeWidth]
  exact decodeLanes_idle (oldestLane_of_empty hsolo.latchFE.empty) _

theorem Solo.issue_first (hid : o.id = some x) (hslot : o.slot.valid = false) :
    ∃ t, issue s = .ok () t ∧
      Solo cfg { o with id := none, slot := { valid := true, exec := false, ready := false, inst := x.issuedAlone } } t ∧
      t.run = s.run := by
  have hID : HoldsFirst cfg.pipeWidth (some x) s.latchID := hid ▸ h.latchID
  obtain ⟨-, hinst⟩ := Lane.valid_of_record (hID.record cfg.one_le_pipeWidth)
  rw [← State.idAt] at hinst
  have hrat (r : Nat) : s.ratAt r = none := by
    cases hg : s.ratAt r with
    | none => rfl
    | some g =>
      obtain ⟨-, hv⟩ := h.rat r g hg
      exact absurd (hslot.symm.trans hv) (by decide)
  have htail : s.robTail = 0 := by rw [h.robTail, hslot]; rfl
  have hspace : robHasSpace s = true := by rw [robHasSpace, htail, h.robAt, if_pos rfl, hslot]; rfl
  let issued : RobSlot := { valid := true, exec := false, ready := false, inst := x.issuedAlone }
  let u : State := { s.setRob 0 issued with robTail := nextSlot s 0 }
  obtain ⟨hframe, hlength, hmap⟩ := renameDest_eq x.dest 0 u
  let t : State :=
    { s with
      rat := (renameDest x.dest 0 u).rat, rob := s.rob.set 0 issued, robTail := nextSlot s 0
      latchID := s.latchID.set 0 { s.idAt 0 with valid := false } }
  have hone : issueOne 0 s = .ok () t := by
    rw [issueOne, hinst, resolveSources, resolveSource_unmapped hrat, Res.bind_ok, resolveSource_unmapped hrat,
      Res.bind_ok, Res.bind_ok, robInsert, if_pos (by exact hspace), Res.bind_ok, htail]
    show Res.ok () ((renameDest x.dest 0 u).setID 0 { (renameDest x.dest 0 u).idAt 0 with valid := false }) = _
    rw [hframe]
    rfl
  have hsolo : Solo cfg { o with id := none, slot := issued } t :=
    { h with
      latchID := h.latchID.set (l := { s.idAt 0 with valid := false }) (h.latchID.stall 0)
      rob := by simp only [t, h.rob, List.set_set]
      ratLength := hlength.trans h.ratLength
      rat := fun r g hg => by
        change (renameDest x.dest 0 u).ratAt r = some g at hg
        rw [hmap] at hg
        split at hg
        · exact ⟨(Option.some.inj hg).symm, rfl⟩
        · exact absurd ((hrat r).symm.trans hg) (by simp)
      robTail := congrArg (fun c : Config => 1 % c.robSize) h.config }
  refine ⟨t, ?_, hsolo, rfl⟩
  obtain ⟨m, hm⟩ := Nat.exists_eq_add_of_lt cfg.one_le_pipeWidth
  rw [issue, h.config, hm, issueUpTo, if_pos hspace, hID.oldestLane cfg.one_le_pipeWidth]
  show (issueOne 0 s).bind _ = _
  rw [hone, Res.bind_ok]
  exact issueUpTo_idle (oldestLane_of_empty hsolo.latchID.empty) _

/-! ## Schedule -/

theorem Solo.select_first (hvalid : o.slot.valid = true) (hexec : o.slot.exec = false)
    (hsrc1 : o.slot.inst.src1Ready = true) (hsrc2 : o.slot.inst.src2Ready = true) : select s = some 0 := by
  have hslot : s.robAt 0 = o.slot := by rw [h.robAt, if_pos rfl]
  have hmem : 0 ∈ robOrder s := by
    rw [robOrder, List.mem_filter, List.mem_map, hslot]
    obtain ⟨k, hk, hk0⟩ := exists_fromHead (head := s.robHead) (t := 0) (h.robHead ▸ cfg.one_le_robSize)
      cfg.one_le_robSize
    exact ⟨⟨k, List.mem_range.mpr (h.config ▸ hk), h.config ▸ hk0⟩, hvalid⟩
  have hready : operandsReady s 0 = true := by rw [operandsReady, hslot, hsrc1, hsrc2]; rfl
  cases horder : robOrder s with
  | nil => rw [horder] at hmem; cases hmem
  | cons g gs =>
    have hg : g = 0 := by
      obtain ⟨-, hgv⟩ := mem_robOrder (horder ▸ List.mem_cons_self : g ∈ robOrder s)
      by_contra hne
      rw [h.robAt, if_neg hne] at hgv
      cases hgv
    subst hg
    unfold select
    split
    · rw [selectInOrder, horder, firstInOrder, hslot, hexec, hready]
      rfl
    · rw [selectOoo, horder, List.find?_cons_of_pos]
      rw [candidate, hslot, hvalid, hexec, hready]
      rfl

theorem Solo.schedule_first (hsc : o.sc = none) (hvalid : o.slot.valid = true) (hexec : o.slot.exec = false)
    (hsrc1 : o.slot.inst.src1Ready = true) (hsrc2 : o.slot.inst.src2Ready = true) :
    ∃ t, schedule s = .ok () t ∧
      Solo cfg { o with sc := some o.slot.inst, slot := { o.slot with exec := true } } t ∧ t.run = s.run := by
  have hselect := h.select_first hvalid hexec hsrc1 hsrc2
  have hfree : (s.scAt 0).valid = false := (hsc ▸ h.latchSC).empty 0
  have hslot : s.robAt 0 = o.slot := by rw [h.robAt, if_pos rfl]
  cases hlane : scheduleLane 0 s with
  | raised t => exact absurd hlane scheduleLane_ne_raised
  | ok _ t =>
    rcases scheduleLane_cases hlane with ⟨-, hidle⟩ | ⟨g, hg⟩
    · rw [hfree, hselect] at hidle
      simp at hidle
    · obtain rfl : 0 = g := Option.some.inj (hselect.symm.trans hg.selected)
      have hframe := hg.frame
      rw [hslot] at hframe
      subst hframe
      have hsolo : Solo cfg { o with sc := some o.slot.inst, slot := { o.slot with exec := true } }
          { s with
            rob := s.rob.set 0 { o.slot with exec := true }
            latchSC := s.latchSC.set 0 { s.scAt 0 with valid := true, inst := o.slot.inst } } :=
        { h with
          latchSC := h.latchSC.set (l := { s.scAt 0 with valid := true, inst := o.slot.inst }) (h.latchSC.stall 0)
          rob := by rw [h.rob, List.set_set] }
      refine ⟨_, ?_, hsolo, rfl⟩
      have hnone := hsolo.select_eq_none (by simp)
      exact forLanes_first s.cfg.one_le_pipeWidth hlane fun k _ => scheduleLane_idle hnone

/-! ## Execute -/

theorem Solo.freeExLane (hex : o.ex = none) : freeExLane s = some 0 := by
  obtain ⟨l, hl, -, hrecord⟩ := h.latchEX
  obtain ⟨m, hm⟩ := Nat.exists_eq_add_of_lt (wbWidth_pos cfg)
  rw [Machine.freeExLane, hl, hm, List.replicate_succ, List.set_cons_zero, List.findIdx?_cons,
    Lane.invalid_of_record (hrecord.trans hex)]
  rfl

theorem Solo.emptySC : Solo cfg { o with sc := none } (emptySC 0 s) :=
  { h with latchSC := h.latchSC.set (l := { s.scAt 0 with valid := false }) (h.latchSC.stall 0) }

theorem Solo.putEX (x : Inst) : Solo cfg { o with ex := some x } (putEX 0 x s) :=
  { h with latchEX := h.latchEX.set (l := { s.exAt 0 with valid := true, inst := x }) (h.latchEX.stall 0) }

theorem Solo.setExeq (y : ExeqSlot) : Solo cfg { o with queue := y.record } (s.setExeq 0 y) :=
  { h with
    exeq := by
      obtain ⟨z, hz, -⟩ := h.exeq
      exact ⟨y, by rw [State.setExeq_exeq, hz, List.set_set], rfl⟩ }

theorem Solo.scAt_first (hsc : o.sc = some x) : (s.scAt 0).valid = true ∧ (s.scAt 0).inst = x :=
  Lane.valid_of_record ((hsc ▸ h.latchSC).record cfg.one_le_pipeWidth)

/-- A single-cycle record passes the EXEQ by (R220). -/
theorem Solo.execute_bypass (hsc : o.sc = some x) (hex : o.ex = none) (hq : o.queue = none)
    (hlat : lat cfg x.op = 1) :
    ∃ t, execute s = .ok () t ∧ Solo cfg { o with sc := none, ex := some x } t ∧ t.run = s.run := by
  obtain ⟨hvalid, hinst⟩ := h.scAt_first hsc
  have hsolo : Solo cfg { o with sc := none, ex := some x } (Machine.emptySC 0 (Machine.putEX 0 x s)) :=
    (h.putEX x).emptySC
  have hlane : bypassLane 0 s = .ok () (Machine.emptySC 0 (Machine.putEX 0 x s)) := by
    rw [bypassLane, hvalid, hinst, h.config, hlat, h.freeExLane hex]
    rfl
  refine ⟨_, ?_, hsolo, rfl⟩
  have hfree := hsolo.latchSC.empty
  have hempty := hsolo.exeqInvalid hq
  rw [execute, h.config, forLanes_first cfg.one_le_pipeWidth hlane fun k _ =>
    bypassLane_idle fun hv => absurd ((hfree k).symm.trans hv) (by decide)]
  rw [Res.bind_ok, forLanes_idle fun k => enqueueLane_idle (hfree k), Res.bind_ok, exeqCycle_idle hempty,
    drainUpTo_idle fun y hy => not_finished_of_invalid (hempty y hy)]

/-- One cycle less for the record in the EXEQ (R154). -/
theorem Solo.exeqCycle (hq : o.queue = some x) :
    Solo cfg { o with queue := some { x with wait := x.wait - 1 } } (exeqCycle s) :=
  { h with
    exeq := by
      obtain ⟨y, hy, hrecord⟩ := h.exeq
      obtain ⟨hvalid, rfl⟩ := ExeqSlot.valid_of_record (hrecord.trans hq)
      refine ⟨ageSlot y, ?_, by rw [ageSlot, hvalid]; rfl⟩
      rw [Machine.exeqCycle, hy, List.map_set, List.map_replicate]
      rfl }

theorem Solo.drain_idle (hq : o.queue = some x) (hwait : x.wait ≠ 0) (n : Nat) : drainUpTo n s = s := by
  refine drainUpTo_idle (fun y hy => ?_) n
  obtain ⟨z, hz, hrecord⟩ := h.exeq
  obtain ⟨-, rfl⟩ := ExeqSlot.valid_of_record (hrecord.trans hq)
  rw [hz] at hy
  rcases mem_set_replicate hy with rfl | rfl
  · rfl
  · rw [ExeqSlot.finished, beq_eq_false_iff_ne.mpr hwait, Bool.and_false]

/-- A multi-cycle record enters the EXEQ and is aged in the same tick (R220). -/
theorem Solo.execute_enqueue (hsc : o.sc = some x) (hq : o.queue = none) (hlat : 1 < lat cfg x.op)
    (hsize : 0 < cfg.exeqSize) :
    ∃ t, execute s = .ok () t ∧
      Solo cfg { o with sc := none, queue := some { x with wait := lat cfg x.op - 1 } } t ∧ t.run = s.run := by
  obtain ⟨hvalid, hinst⟩ := h.scAt_first hsc
  obtain ⟨y, hy, hrecord⟩ := h.exeq
  have hslot : freeExeqSlot s = some 0 := by
    obtain ⟨m, hm⟩ := Nat.exists_eq_add_of_lt hsize
    rw [freeExeqSlot, hy, hm, List.replicate_succ, List.set_cons_zero, List.findIdx?_cons,
      ExeqSlot.invalid_of_record (hrecord.trans hq)]
    rfl
  let u := Machine.emptySC 0 (s.setExeq 0 { valid := true, inst := { x with wait := lat cfg x.op } })
  have hu : Solo cfg { o with sc := none, queue := some { x with wait := lat cfg x.op } } u :=
    (h.setExeq { valid := true, inst := { x with wait := lat cfg x.op } }).emptySC
  have hlane : enqueueLane 0 s = .ok () u := by
    rw [enqueueLane, hvalid, hinst, h.config, decide_eq_true hlat, exeqInsert, hslot, h.config]
    rfl
  have hcycle := hu.exeqCycle rfl
  refine ⟨_, ?_, hcycle, rfl⟩
  have hbypass (k : Nat) : bypassLane k s = .ok () s := by
    refine bypassLane_idle fun hv => ?_
    by_cases hk : k = 0
    · rw [hk, hinst, h.config]
      omega
    · exact absurd ((h.latchSC.valid_of_ne hk).symm.trans hv) (by decide)
  rw [execute, forLanes_idle hbypass, Res.bind_ok, h.config, forLanes_first cfg.one_le_pipeWidth hlane fun k _ =>
    enqueueLane_idle (hu.latchSC.empty k), Res.bind_ok, hcycle.drain_idle rfl (by simp only; omega)]

theorem Solo.execute_count (hsc : o.sc = none) (hq : o.queue = some x) (hwait : 2 ≤ x.wait) :
    ∃ t, execute s = .ok () t ∧ Solo cfg { o with queue := some { x with wait := x.wait - 1 } } t ∧ t.run = s.run := by
  have hcycle := h.exeqCycle hq
  refine ⟨_, ?_, hcycle, rfl⟩
  rw [execute_of_latchSC_empty (hsc ▸ h.latchSC).empty, hcycle.drain_idle rfl (by simp only; omega)]

theorem Solo.oldestFinished (hq : o.queue = some x) (hwait : x.wait = 0) (hsize : 0 < cfg.exeqSize) :
    oldestFinished s = some 0 ∧ (s.exeqAt 0).inst = x := by
  obtain ⟨y, hy, hrecord⟩ := h.exeq
  obtain ⟨hvalid, rfl⟩ := ExeqSlot.valid_of_record (hrecord.trans hq)
  have hat (q : Nat) : s.exeqAt q = if q = 0 ∧ 0 < cfg.exeqSize then y else .empty := by
    rw [State.exeqAt, hy, getD_set_replicate]
  refine ⟨?_, by rw [hat, if_pos ⟨rfl, hsize⟩]⟩
  have hmem : y ∈ s.exeq := hy ▸ List.mem_set (by simpa using hsize) y
  have hfinished : y.finished = true := by rw [ExeqSlot.finished, hvalid, hwait]; rfl
  cases hold : Machine.oldestFinished s with
  | none =>
    refine absurd (List.mem_map.mpr ⟨y, hmem, ?_⟩) (oldest_eq_none.mp hold y.inst.seq)
    rw [if_pos hfinished]
  | some q =>
    obtain ⟨a, hkey, -⟩ := oldest_eq_some hold
    rw [List.getElem?_map, Option.map_eq_some_iff] at hkey
    obtain ⟨z, hz, hkey⟩ := hkey
    have hzq : s.exeqAt q = z := by rw [State.exeqAt, List.getD_eq_getElem?_getD, hz]; rfl
    by_contra hne
    rw [hat, if_neg fun hand => hne (by rw [hand.1])] at hzq
    subst hzq
    cases hkey

/-- The last cycle takes the record to the execute latch (R220). -/
theorem Solo.execute_finish (hsc : o.sc = none) (hex : o.ex = none) (hq : o.queue = some x) (hwait : x.wait = 1)
    (hsize : 0 < cfg.exeqSize) :
    ∃ t, execute s = .ok () t ∧ Solo cfg { o with queue := none, ex := some { x with wait := 0 } } t ∧
      t.run = s.run := by
  have hcycle : Solo cfg { o with queue := some { x with wait := 0 } } (Machine.exeqCycle s) := by
    have hc := h.exeqCycle hq
    rwa [hwait] at hc
  obtain ⟨hold, hinst⟩ := hcycle.oldestFinished rfl rfl hsize
  have hmoved := (hcycle.setExeq { valid := false, inst := { x with wait := 0 } }).putEX { x with wait := 0 }
  refine ⟨_, ?_, hmoved, rfl⟩
  obtain ⟨m, hm⟩ := Nat.exists_eq_add_of_lt (wbWidth_pos cfg)
  rw [execute_of_latchSC_empty (hsc ▸ h.latchSC).empty, h.latchEX.length, hm, drainUpTo, hcycle.freeExLane hex, exeqRemoveFinished, hold]
  simp only
  rw [hinst, drainUpTo_idle fun y hy => not_finished_of_invalid (hmoved.exeqInvalid rfl y hy)]

/-! ## Writeback and Commit -/

theorem Solo.writeback_first (hex : o.ex = some x) (htag : x.drTag = some 0) (hvalid : o.slot.valid = true) :
    ∃ t, writeback s = .ok () t ∧
      Solo cfg { o with ex := none, slot := wakeSlot 0 { o.slot with ready := true } } t ∧ t.run = s.run := by
  obtain ⟨hlv, hinst⟩ := Lane.valid_of_record ((hex ▸ h.latchEX).record (wbWidth_pos cfg))
  rw [← State.exAt] at hlv hinst
  have hslot : s.robAt 0 = o.slot := by rw [h.robAt, if_pos rfl]
  have hwake : (wakeSlot 0 { o.slot with ready := true }).valid = true := by
    obtain ⟨hv, -⟩ := wakeSlot_fields 0 { o.slot with ready := true }
    rw [hv, hvalid]
  let t : State := (robWakeup 0 (s.setRob 0 { o.slot with ready := true })).setEX 0 { s.exAt 0 with valid := false }
  have hlane : writebackLane 0 s = .ok () t := by
    rw [writebackLane, if_pos hlv, hinst, htag]
    simp only
    rw [robMarkReady, hslot, if_pos hvalid]
    rfl
  have hsolo : Solo cfg { o with ex := none, slot := wakeSlot 0 { o.slot with ready := true } } t :=
    { h with
      latchEX := h.latchEX.set (l := { s.exAt 0 with valid := false }) (h.latchEX.stall 0)
      rob := by
        show (s.rob.set 0 _).map (wakeSlot 0) = _
        rw [h.rob, List.set_set, List.map_set, List.map_replicate]
        rfl
      rat := fun r g hg =>
        let ⟨hg0, _⟩ := h.rat r g hg
        ⟨hg0, hwake⟩
      robTail := by
        rw [hwake]
        exact h.robTail.trans (by rw [hvalid]) }
  refine ⟨t, ?_, hsolo, rfl⟩
  exact forLanes_first (wbWidth_pos s.cfg) hlane fun k _ => writebackLane_idle (hsolo.latchEX.empty k)

/-- The one instruction retires: its slot is free, nothing else is ready, and it halts the run if it was the last (R236,
R238). -/
theorem Solo.commit_first (hvalid : o.slot.valid = true) (hready : o.slot.ready = true) :
    ∃ t, commit s = .ok () t ∧
      t.rob = s.rob.set 0 { o.slot with valid := false, exec := false, ready := false } ∧
      t.run = { s.run with
        retiredCount := s.retiredCount + 1
        halted := s.halted || s.eosSeen && decide (s.haltSeq ≤ o.slot.inst.seq) } ∧
      t = { s with
        rat := t.rat, rob := t.rob, robHead := t.robHead, retiredCount := t.retiredCount, halted := t.halted } := by
  have hslot : s.robAt s.robHead = o.slot := by rw [h.robHead, h.robAt, if_pos rfl]
  have hheadReady : robHeadIsReady s = true := by rw [h.robHeadIsReady_eq, hvalid, hready]; rfl
  let u : State :=
    { s.setRob 0 { o.slot with valid := false, exec := false, ready := false } with robHead := nextSlot s 0 }
  have hremove : robRemoveHead s = .ok o.slot.inst u := by
    rw [robRemoveHead, if_pos hheadReady, hslot, h.robHead]
  have hnext (g : Nat) : ((retire o.slot.inst u).robAt g).valid = false := by
    rw [retire_eq]
    show ((s.rob.set 0 _).getD g .empty).valid = false
    rw [h.rob, List.set_set, getD_set_replicate]
    split <;> rfl
  refine ⟨retire o.slot.inst u, ?_, ?_, ?_, ?_⟩
  · obtain ⟨m, hm⟩ := Nat.exists_eq_add_of_lt cfg.one_le_pipeWidth
    rw [commit, h.config, hm, commitUpTo, if_pos hheadReady, hremove, Res.bind_ok]
    exact commitUpTo_idle (by rw [robHeadIsReady, hnext]; rfl) _
  all_goals rw [retire_eq]; rfl

end

end

end Sys2Proof.Machine
end

section
/-! PROOFS. The round trip (49_properties.md R290): from reset, the one record of the trace is fetched, moves one stage a
tick and retires. -/

namespace Sys2Proof.Machine

/-! ## Fetch at the end of the stream -/

section
variable {cfg : Config} {o o' : Occupancy} {i : Instr} {s t : State}

theorem endInput_of_free {k : Nat} (hfree : (s.feAt k).valid = false) :
    endInput k s = { s with eosSeen := true, haltSeq := s.lastSeq, halted := s.halted || s.lastSeq == 0 } := by
  have hlane : ({ s.feAt k with valid := false } : Lane) = s.feAt k := by rw [← hfree]
  have hset : s.latchFE.set k (s.feAt k) = s.latchFE := by
    refine List.ext_getElem (by simp) fun j hj hj' => ?_
    rw [List.getElem_set]
    split
    next hkj =>
      subst hkj
      rw [State.feAt, List.getD_eq_getElem _ _ hj']
    next => rfl
  rw [endInput, hlane, State.setFE, hset]

/-- At the end of the stream Fetch ends the input in the first free lane, if it has not ended and there is one. -/
theorem fetchLanes_at_end : ∀ (ks : List Nat) (first : Option TraceItem) (s : State),
    first.getD (nextItem s) = .endOfStream → nextItem s = .endOfStream →
    (fetchLanes ks first s = s ∧ (s.eosSeen = true ∨ ∀ k ∈ ks, (s.feAt k).valid = true ∨ (s.feAt k).stall = true)) ∨
    fetchLanes ks first s =
      { s with eosSeen := true, haltSeq := s.lastSeq, halted := s.halted || s.lastSeq == 0 }
  | [], _, _, _, _ => .inl ⟨rfl, .inr fun _ hk => nomatch hk⟩
  | k :: ks, first, s, hfirst, hnext => by
    unfold fetchLanes
    split
    next heos => exact .inl ⟨rfl, .inl heos⟩
    next =>
      split
      next hfull =>
        rw [Bool.or_eq_true] at hfull
        refine (fetchLanes_at_end ks first s hfirst hnext).imp_left fun ⟨hsame, hrest⟩ => ⟨hsame, ?_⟩
        exact hrest.imp_right fun hrest j hj => (List.mem_cons.mp hj).elim (fun he => he ▸ hfull) (hrest j)
      next hfree =>
        simp only [Bool.or_eq_true, not_or, Bool.not_eq_true] at hfree
        rw [hfirst, fetchInto, endInput_of_free hfree.1]
        exact .inr (fetchLanes_ended rfl ks none)

/-! ## One tick -/

theorem beforeFetch_ok {s1 s2 s3 s4 s5 : State} (h1 : commit { s with cycleCount := s.cycleCount + 1 } = .ok () s1)
    (h2 : writeback s1 = .ok () s2) (h3 : execute s2 = .ok () s3) (h4 : schedule s3 = .ok () s4)
    (h5 : issue s4 = .ok () s5) : beforeFetch s = .ok () (decode s5) := by
  rw [beforeFetch, h1, Res.bind_ok, h2, Res.bind_ok, h3, Res.bind_ok, h4, Res.bind_ok, h5, Res.bind_ok]

/-- The record as Issue leaves it in a machine with nothing else. -/
def aloneInst (i : Instr) : Inst := (fetchedInst 1 i).issuedAlone

/-- The run state once the input has ended after one record, before that retires. -/
def runAt (c : Nat) : Run :=
  { lastSeq := 1, eosSeen := true, haltSeq := 1, halted := false, fault := none, cycleCount := c, retiredCount := 0 }

theorem Solo.counted (h : Solo cfg o s) : Solo cfg o { s with cycleCount := s.cycleCount + 1 } := { h with }

theorem step_eq_of_beforeFetch (h : Solo cfg o s) (hrange : ∀ x ∈ o.records, instInRange cfg x = true) (hrun : running s = true)
    (hstages : beforeFetch s = .ok () t) : step s = .next (fetch (nextItem s) t) := by
  rw [step_eq_clock, clock_eq_next]
  refine ⟨h.wellShaped hrange, ?_⟩
  rw [tick, if_pos hrun, hstages]
  rfl

theorem run_fields {c : Nat} (h : s.run = runAt c) :
    s.lastSeq = 1 ∧ s.eosSeen = true ∧ s.haltSeq = 1 ∧ s.halted = false ∧ s.fault = none ∧ s.cycleCount = c ∧
      s.retiredCount = 0 := by
  simpa [State.run, runAt] using h

theorem running_of_run {c : Nat} (h : s.run = runAt c) : running s = true := by
  obtain ⟨-, -, -, hhalted, hfault, -⟩ := run_fields h
  rw [running, hhalted, hfault]
  rfl

theorem run_counted {c : Nat} (h : s.run = runAt c) : ({ s with cycleCount := s.cycleCount + 1 } : State).run = runAt (c + 1) := by
  obtain ⟨h1, h2, h3, h4, h5, h6, h7⟩ := run_fields h
  rw [State.run, h1, h2, h3, h4, h5, h6, h7, runAt]

/-- After the end of the input, a tick takes the machine from holding `o` to holding `o'`. -/
def Moves (cfg : Config) (o o' : Occupancy) : Prop :=
  ∀ s c, Solo cfg o s → s.run = runAt c → ∃ t, step s = .next t ∧ Solo cfg o' t ∧ t.run = runAt (c + 1)

/-- Stages that take `o` to `o'` and leave the run state alone are such a tick. -/
theorem moves_of_stages (hrange : ∀ x ∈ o.records, instInRange cfg x = true) (hfe : o'.fe = none)
    (hstages : ∀ s, Solo cfg o s → ∃ s1 s2 s3 s4 s5, commit s = .ok () s1 ∧ writeback s1 = .ok () s2 ∧
      execute s2 = .ok () s3 ∧ schedule s3 = .ok () s4 ∧ issue s4 = .ok () s5 ∧ Solo cfg o' s5 ∧ s5.run = s.run) :
    Moves cfg o o' := by
  intro s c hs hrun
  obtain ⟨s1, s2, s3, s4, s5, h1, h2, h3, h4, h5, hsolo, hrun'⟩ := hstages _ hs.counted
  rw [run_counted hrun] at hrun'
  obtain ⟨-, heos, -⟩ := run_fields hrun'
  have hstep := step_eq_of_beforeFetch hs hrange (running_of_run hrun) (beforeFetch_ok h1 h2 h3 h4 h5)
  rw [hsolo.decode_idle hfe, fetch, fetchLanes_ended heos] at hstep
  exact ⟨s5, hstep, hsolo, hrun'⟩

/-! ## Every record of the machine is in range -/

theorem optBelow_regIndex {n : Nat} {r : Operand} (hr : Operand.inRange n r = true) : optBelow n (regIndex r) = true := by
  cases r with
  | none => rfl
  | some r => exact hr

/-- The fields that the machine writes into a record are in range. -/
theorem instInRange_of_wellFormed (hi : i.wellFormed cfg.numArchRegs = true) {x : Inst}
    (hregs : x.dest = regIndex i.dest ∧ x.src1 = regIndex i.src1 ∧ x.src2 = regIndex i.src2)
    (htags : x.src1Tag = none ∧ x.src2Tag = none ∧ (x.drTag = none ∨ x.drTag = some 0)) (hwait : x.wait ≤ cfg.loadLatency) :
    instInRange cfg x = true := by
  obtain ⟨hd, h1, h2⟩ := hregs
  obtain ⟨ht1, ht2, ht⟩ := htags
  have hoperand := Instr.wellFormed_iff.mp hi
  have htag : optBelow cfg.robSize x.drTag = true := by
    rcases ht with ht | ht <;> rw [ht]
    · rfl
    · exact decide_eq_true cfg.one_le_robSize
  rw [instInRange, hd, h1, h2, ht1, ht2, htag, optBelow_regIndex (hoperand _ (by simp)),
    optBelow_regIndex (hoperand _ (by simp)), optBelow_regIndex (hoperand _ (by simp)), decide_eq_true hwait]
  rfl

theorem instInRange_fetchedInst (hi : i.wellFormed cfg.numArchRegs = true) : instInRange cfg (fetchedInst 1 i) = true :=
  instInRange_of_wellFormed hi ⟨rfl, rfl, rfl⟩ ⟨rfl, rfl, .inl rfl⟩ (Nat.zero_le _)

theorem instInRange_aloneInst_wait (hi : i.wellFormed cfg.numArchRegs = true) {w : Nat} (hw : w ≤ cfg.loadLatency) :
    instInRange cfg { aloneInst i with wait := w } = true :=
  instInRange_of_wellFormed hi ⟨rfl, rfl, rfl⟩ ⟨rfl, rfl, .inr rfl⟩ hw

theorem instInRange_aloneInst (hi : i.wellFormed cfg.numArchRegs = true) : instInRange cfg (aloneInst i) = true :=
  instInRange_aloneInst_wait hi (Nat.zero_le _)

theorem lat_le_loadLatency (cfg : Config) (op : OpClass) : lat cfg op ≤ cfg.loadLatency := by
  rw [lat_eq_ite]
  split
  · exact Nat.le_refl _
  · exact cfg.one_le_loadLatency

/-! ## The instruction's places, tick by tick -/

/-- The instruction's ROB slot with its flags. -/
def aloneSlot (i : Instr) (exec ready : Bool) : RobSlot :=
  { valid := true, exec := exec, ready := ready, inst := aloneInst i }

/-- Fetched. -/
def inFE (i : Instr) : Occupancy := { fe := some (fetchedInst 1 i) }

/-- Decoded. -/
def inID (i : Instr) : Occupancy := { id := some (fetchedInst 1 i) }

/-- Issued, both sources ready. -/
def inROB (i : Instr) : Occupancy := { slot := aloneSlot i false false }

/-- Scheduled. -/
def inSC (i : Instr) : Occupancy := { sc := some (aloneInst i), slot := aloneSlot i true false }

/-- Executing, with `w` cycles left. -/
def inEXEQ (i : Instr) (w : Nat) : Occupancy :=
  { queue := some { aloneInst i with wait := w }, slot := aloneSlot i true false }

/-- Executed. -/
def inEX (i : Instr) : Occupancy := { ex := some (aloneInst i), slot := aloneSlot i true false }

/-- Completed. -/
def written (i : Instr) : Occupancy := { slot := aloneSlot i true true }

/-- What Execute does to the instruction is the tick, since its slot is already executing. -/
theorem moves_of_execute {o o' : Occupancy} (hrange : ∀ x ∈ o.records, instInRange cfg x = true)
    (hslot : o.slot = aloneSlot i true false) (hslot' : o'.slot = aloneSlot i true false) (hex : o.ex = none)
    (hfe' : o'.fe = none) (hid' : o'.id = none)
    (hexecute : ∀ s, Solo cfg o s → ∃ t, execute s = .ok () t ∧ Solo cfg o' t ∧ t.run = s.run) : Moves cfg o o' := by
  refine moves_of_stages hrange hfe' fun s hs => ?_
  obtain ⟨t, ht, hsolo, hrun⟩ := hexecute s hs
  exact ⟨s, s, t, t, t, hs.commit_idle (by rw [hslot]; rfl), hs.writeback_idle hex, ht,
    hsolo.schedule_idle (by rw [hslot']; rfl), hsolo.issue_idle hid', hsolo, hrun⟩

section
variable (hi : i.wellFormed cfg.numArchRegs = true)
include hi

theorem moves_inID_inROB : Moves cfg (inID i) (inROB i) := by
  refine moves_of_stages (by simpa [Occupancy.records, inID, RobSlot.empty] using instInRange_fetchedInst hi) rfl
    fun s hs => ?_
  obtain ⟨t, ht, hsolo, hrun⟩ := hs.issue_first rfl rfl
  exact ⟨s, s, s, s, t, hs.commit_idle rfl, hs.writeback_idle rfl, hs.execute_idle rfl rfl, hs.schedule_idle rfl, ht,
    hsolo, hrun⟩

theorem moves_inROB_inSC : Moves cfg (inROB i) (inSC i) := by
  refine moves_of_stages (by simpa [Occupancy.records, inROB, aloneSlot] using instInRange_aloneInst hi) rfl fun s hs => ?_
  obtain ⟨t, ht, hsolo, hrun⟩ := hs.schedule_first rfl rfl rfl rfl rfl
  exact ⟨s, s, s, t, t, hs.commit_idle rfl, hs.writeback_idle rfl, hs.execute_idle rfl rfl, ht, hsolo.issue_idle rfl,
    hsolo, hrun⟩

theorem inSC_inRange : ∀ x ∈ (inSC i).records, instInRange cfg x = true := by
  simpa [Occupancy.records, inSC, aloneSlot] using instInRange_aloneInst hi

theorem moves_inSC_inEX (hlat : lat cfg i.op = 1) : Moves cfg (inSC i) (inEX i) :=
  moves_of_execute (inSC_inRange hi) rfl rfl rfl rfl rfl fun _ hs => hs.execute_bypass rfl rfl rfl hlat

theorem moves_inSC_inEXEQ (hlat : 1 < lat cfg i.op) (hsize : 0 < cfg.exeqSize) :
    Moves cfg (inSC i) (inEXEQ i (lat cfg i.op - 1)) :=
  moves_of_execute (inSC_inRange hi) rfl rfl rfl rfl rfl fun _ hs => hs.execute_enqueue rfl rfl hlat hsize

theorem inEXEQ_inRange {w : Nat} (hw : w ≤ cfg.loadLatency) : ∀ x ∈ (inEXEQ i w).records, instInRange cfg x = true := by
  simpa [Occupancy.records, inEXEQ, aloneSlot] using ⟨instInRange_aloneInst_wait hi hw, instInRange_aloneInst hi⟩

theorem moves_inEXEQ_inEXEQ {w : Nat} (hw : w + 2 ≤ cfg.loadLatency) :
    Moves cfg (inEXEQ i (w + 2)) (inEXEQ i (w + 1)) :=
  moves_of_execute (inEXEQ_inRange hi hw) rfl rfl rfl rfl rfl fun _ hs => hs.execute_count rfl rfl (Nat.le_add_left ..)

theorem moves_inEXEQ_inEX (hsize : 0 < cfg.exeqSize) : Moves cfg (inEXEQ i 1) (inEX i) :=
  moves_of_execute (inEXEQ_inRange hi cfg.one_le_loadLatency) rfl rfl rfl rfl rfl fun _ hs =>
    hs.execute_finish rfl rfl rfl rfl hsize

theorem moves_inEX_written : Moves cfg (inEX i) (written i) := by
  refine moves_of_stages (by simpa [Occupancy.records, inEX, aloneSlot] using instInRange_aloneInst hi) rfl fun s hs => ?_
  obtain ⟨t, ht, hsolo, hrun⟩ := hs.writeback_first rfl rfl rfl
  exact ⟨s, t, t, t, t, hs.commit_idle rfl, ht, hsolo.execute_idle rfl rfl, hsolo.schedule_idle rfl,
    hsolo.issue_idle rfl, hsolo, hrun⟩

end

/-! ## The first two ticks and the last -/

/-- The run state after the first tick; with one fetch lane the end of the input is still to be met. -/
structure FetchedOnce (s : State) : Prop where
  lastSeq : s.lastSeq = 1
  haltSeq : s.eosSeen = true → s.haltSeq = 1
  halted : s.halted = false
  fault : s.fault = none
  cycleCount : s.cycleCount = 1
  retiredCount : s.retiredCount = 0
  atEnd : nextItem s = .endOfStream

theorem beforeFetch_reset (h : Solo cfg {} s) :
    beforeFetch s = .ok () { s with cycleCount := s.cycleCount + 1 } := by
  have hs := h.counted
  have hstages := beforeFetch_ok (hs.commit_idle rfl) (hs.writeback_idle rfl) (hs.execute_idle rfl rfl)
    (hs.schedule_idle rfl) (hs.issue_idle rfl)
  rwa [hs.decode_idle rfl] at hstages

theorem step_reset (hi : i.wellFormed cfg.numArchRegs = true) :
    ∃ t, step (State.resetWith cfg [encode i]) = .next t ∧ Solo cfg (inFE i) t ∧ FetchedOnce t := by
  have hs := solo_resetWith cfg [encode i]
  have hitem : nextItem (State.resetWith cfg [encode i]) = .record i := by
    have hdecode := decodeRecord_encode hi
    simp [nextItem, State.resetWith, hdecode]
  have hstep := step_eq_of_beforeFetch hs (by simp [Occupancy.records, RobSlot.empty]) rfl (beforeFetch_reset hs)
  let r : State := { State.resetWith cfg [encode i] with cycleCount := 1 }
  let v := fetchInto 0 (.record i) r
  have hr : Solo cfg {} r := hs.counted
  have hv : Solo cfg (inFE i) v :=
    { hr with
      latchFE := hr.latchFE.set (l := { r.feAt 0 with valid := true, inst := fetchedInst 1 i }) (hr.latchFE.stall 0) }
  have hend : nextItem v = .endOfStream := rfl
  have hfetch : fetch (.record i) r = fetchLanes ((List.range (cfg.pipeWidth - 1)).map Nat.succ) none v := by
    obtain ⟨m, hm⟩ := Nat.exists_eq_add_of_lt cfg.one_le_pipeWidth
    have hlane : ((r.feAt 0).valid || (r.feAt 0).stall) = false := by
      rw [State.feAt, hr.latchFE.empty 0, hr.latchFE.stall 0, Bool.or_false]
    have hwidth : r.cfg.pipeWidth = 0 + m + 1 := hm
    rw [fetch, hwidth, hm, List.range_succ_eq_map, fetchLanes, hlane]
    rfl
  rw [hitem] at hstep
  refine ⟨_, hstep, ?_⟩
  change Solo cfg (inFE i) (fetch (.record i) r) ∧ FetchedOnce (fetch (.record i) r)
  rw [hfetch]
  rcases fetchLanes_at_end _ none v hend hend with ⟨hsame, -⟩ | hended
  · rw [hsame]
    exact ⟨hv, rfl, fun heos => (nomatch heos), rfl, rfl, rfl, rfl, hend⟩
  · rw [hended]
    exact ⟨{ hv with }, rfl, fun _ => rfl, rfl, rfl, rfl, rfl, hend⟩

theorem step_inFE (hi : i.wellFormed cfg.numArchRegs = true) (h : Solo cfg (inFE i) s) (hrun : FetchedOnce s) :
    ∃ t, step s = .next t ∧ Solo cfg (inID i) t ∧ t.run = runAt 2 := by
  have hs := h.counted
  obtain ⟨t, ht, hsolo, hsame, hitem⟩ := hs.decode_first rfl rfl
  have hstages := beforeFetch_ok (hs.commit_idle rfl) (hs.writeback_idle rfl) (hs.execute_idle rfl rfl)
    (hs.schedule_idle rfl) (hs.issue_idle rfl)
  have hrunning : running s = true := by rw [running, hrun.halted, hrun.fault]; rfl
  have hstep := step_eq_of_beforeFetch h
    (by simpa [Occupancy.records, inFE, RobSlot.empty] using instInRange_fetchedInst hi) hrunning hstages
  have hend : nextItem t = .endOfStream := hitem.trans hrun.atEnd
  rw [hrun.atEnd, ht] at hstep
  obtain ⟨hlast, hhalted, hfault, hcycle, hretired⟩ :
      t.lastSeq = 1 ∧ t.halted = false ∧ t.fault = none ∧ t.cycleCount = 2 ∧ t.retiredCount = 0 := by
    simp only [State.run, Run.mk.injEq] at hsame
    obtain ⟨h1, -, -, h4, h5, h6, h7⟩ := hsame
    exact ⟨h1.trans hrun.lastSeq, h4.trans hrun.halted, h5.trans hrun.fault, h6.trans (by rw [hrun.cycleCount]),
      h7.trans hrun.retiredCount⟩
  refine ⟨_, hstep, ?_⟩
  rcases fetchLanes_at_end (List.range t.cfg.pipeWidth) (some .endOfStream) t rfl hend with ⟨hkept, hwhy⟩ | hended
  · have heos : t.eosSeen = true := hwhy.resolve_right fun hfull => by
      have hlane := hfull 0 (List.mem_range.mpr t.cfg.one_le_pipeWidth)
      rw [State.feAt, hsolo.latchFE.empty 0, hsolo.latchFE.stall 0] at hlane
      simp at hlane
    have hhalt : t.haltSeq = 1 := by
      simp only [State.run, Run.mk.injEq] at hsame
      obtain ⟨-, h2, h3, -⟩ := hsame
      exact h3.trans (hrun.haltSeq (h2.symm.trans heos))
    rw [fetch, hkept]
    exact ⟨hsolo, by rw [State.run, hlast, heos, hhalt, hhalted, hfault, hcycle, hretired]; rfl⟩
  · rw [fetch, hended]
    exact ⟨{ hsolo with }, by rw [State.run, hlast, hhalted, hfault, hcycle, hretired]; rfl⟩

end

end Sys2Proof.Machine
end

section
/-! PROOFS. The round trip as a run (49_properties.md R290): the ticks in a row, and the state of the instruction after
each. -/

namespace Sys2Proof.Machine

section
variable {cfg : Config} {o o' : Occupancy} {i : Instr} {s t u : State} {q : Nat}

/-! ## The last tick -/

/-- After the retirement nothing is left: every stage after Commit finds its arrays empty. -/
theorem step_written (hi : i.wellFormed cfg.numArchRegs = true) {c : Nat} (h : Solo cfg (written i) s)
    (hrun : s.run = runAt c) :
    ∃ t, step s = .next t ∧ t.run = { runAt (c + 1) with halted := true, retiredCount := 1 } ∧
      inPhase t 1 .committed = true := by
  have hs := h.counted
  have hcounted := run_counted hrun
  obtain ⟨t, hcommit, hrob, hrun', hframe⟩ := hs.commit_first rfl rfl
  obtain ⟨-, heos, hhalt, hhalted, -, -, hretired⟩ := run_fields hcounted
  rw [hcounted, heos, hhalt, hhalted, hretired] at hrun'
  change t.run = { runAt (c + 1) with halted := true, retiredCount := 1 } at hrun'
  have hFE (k : Nat) : (t.feAt k).valid = false := by rw [hframe]; exact hs.latchFE.empty k
  have hID (k : Nat) : (t.idAt k).valid = false := by rw [hframe]; exact hs.latchID.empty k
  have hSC (k : Nat) : (t.scAt k).valid = false := by rw [hframe]; exact hs.latchSC.empty k
  have hEX (k : Nat) : (t.exAt k).valid = false := by rw [hframe]; exact hs.latchEX.empty k
  have hexeq : ∀ x ∈ t.exeq, x.valid = false := by rw [hframe]; exact hs.exeqInvalid rfl
  have hslots : ∀ x ∈ t.rob, x.valid = false := by
    intro x hx
    rw [hrob, hs.rob, List.set_set] at hx
    rcases mem_set_replicate hx with rfl | rfl <;> rfl
  have hselect : select t = none := by
    cases hg : select t with
    | none => rfl
    | some g =>
      obtain ⟨-, hcand, -⟩ := select_eq_some hg
      simp only [candidate, Bool.and_eq_true] at hcand
      have hlt := lt_length_of_slot_valid hcand.1
      rw [State.robAt, List.getD_eq_getElem _ _ hlt, hslots _ (List.getElem_mem hlt)] at hcand
      exact absurd hcand.1 (by decide)
  have hstages := beforeFetch_ok hcommit (writeback_of_empty hEX) (execute_of_empty hSC hexeq)
    (schedule_of_select hselect) (issue_of_empty hID)
  have hstep := step_eq_of_beforeFetch h
    (by simpa [Occupancy.records, written, aloneSlot] using instInRange_aloneInst hi) (running_of_run hrun) hstages
  have heos' : t.eosSeen = true := congrArg Run.eosSeen hrun'
  have hretired' : t.retiredCount = 1 := congrArg Run.retiredCount hrun'
  rw [decode_of_empty hFE, fetch, fetchLanes_ended heos'] at hstep
  refine ⟨t, hstep, hrun', ?_⟩
  have hlatch {latch : List Lane} (hempty : ∀ k, (latch.getD k .empty).valid = false) : latchHolds latch 1 = false := by
    rw [latchHolds_eq_false_iff, latchSeqs_eq_map, laneRecords_of_all_invalid (forall_lane_iff.mpr fun k _ => hempty k)]
    exact List.not_mem_nil
  have hnone : robHolds t 1 (fun _ => true) = false := by
    rw [robHolds, List.any_eq_false]
    intro x hx
    simp [hslots x hx]
  have hqueue : exeqHolds t 1 (fun _ => true) = false := by
    rw [exeqHolds, List.any_eq_false]
    intro x hx
    simp [hexeq x hx]
  simp only [inPhase, travels, hretired', hlatch hFE, hlatch hID, hlatch hSC, hlatch hEX, hnone, hqueue]
  rfl

/-! ## Ticks in a row -/

theorem run_of_step {M : Host.Core} {a b : M.State} (h : M.step a = .next b) (n : Nat) :
    M.run (n + 1) a = M.run n b := by
  rw [Host.Core.run, h]

theorem exists_step_of_run {M : Host.Core} {a c : M.State} {n : Nat} (h : M.run (n + 1) a = .next c) :
    ∃ b, M.step a = .next b ∧ M.run n b = .next c := by
  rw [Host.Core.run] at h
  split at h
  next b hb => exact ⟨b, hb, h⟩
  next => cases h
  next => cases h

theorem ticks_succ {n : Nat} (h : ticks n s = .next u) (h' : step u = .next t) : ticks (n + 1) s = .next t := by
  induction n generalizing s with
  | zero =>
    cases h
    exact run_of_step (M := core) h' 0
  | succ n ih =>
    obtain ⟨v, hv, hrest⟩ := exists_step_of_run (M := core) h
    exact (run_of_step (M := core) hv (n + 1)).trans (ih hrest)

/-- After `n` ticks from reset, with the one record of `i` as the trace, the machine holds `o` and waits for nothing but the
retirement. -/
def HoldsAfter (cfg : Config) (i : Instr) (n : Nat) (o : Occupancy) : Prop :=
  ∃ u, ticks n (State.resetWith cfg [encode i]) = .next u ∧ Solo cfg o u ∧ u.run = runAt n

theorem HoldsAfter.move {n : Nat} (h : HoldsAfter cfg i n o) (hmove : Moves cfg o o') : HoldsAfter cfg i (n + 1) o' :=
  let ⟨u, hu, hsolo, hrun⟩ := h
  let ⟨t, ht, hsolo', hrun'⟩ := hmove u n hsolo hrun
  ⟨t, ticks_succ hu ht, hsolo', hrun'⟩

section
variable (hi : i.wellFormed cfg.numArchRegs = true)
include hi

theorem fetched_after_one : ∃ u, ticks 1 (State.resetWith cfg [encode i]) = .next u ∧ Solo cfg (inFE i) u ∧ FetchedOnce u :=
  let ⟨t, ht, hsolo, hrun⟩ := step_reset hi
  ⟨t, ticks_succ rfl ht, hsolo, hrun⟩

theorem holdsAfter_inID : HoldsAfter cfg i 2 (inID i) :=
  let ⟨_, hu, hsolo, hrun⟩ := fetched_after_one hi
  let ⟨t, ht, hsolo', hrun'⟩ := step_inFE hi hsolo hrun
  ⟨t, ticks_succ hu ht, hsolo', hrun'⟩

theorem holdsAfter_inROB : HoldsAfter cfg i 3 (inROB i) := (holdsAfter_inID hi).move (moves_inID_inROB hi)

theorem holdsAfter_inSC : HoldsAfter cfg i 4 (inSC i) := (holdsAfter_inROB hi).move (moves_inROB_inSC hi)

/-- By induction on the ticks in the EXEQ: each takes one off the countdown. -/
theorem holdsAfter_inEXEQ (hsize : 0 < cfg.exeqSize) (j : Nat) (hj : j + 1 < lat cfg i.op) :
    HoldsAfter cfg i (5 + j) (inEXEQ i (lat cfg i.op - 1 - j)) := by
  induction j with
  | zero => exact (holdsAfter_inSC hi).move (moves_inSC_inEXEQ hi hj hsize)
  | succ j ih =>
    have hle := lat_le_loadLatency cfg i.op
    obtain ⟨w, hw⟩ : ∃ w, lat cfg i.op - 1 - j = w + 2 := ⟨lat cfg i.op - 1 - j - 2, by omega⟩
    have hnext : lat cfg i.op - 1 - (j + 1) = w + 1 := by omega
    have hprev := ih (by omega)
    rw [hw] at hprev
    rw [hnext]
    exact hprev.move (moves_inEXEQ_inEXEQ hi (by omega))

theorem holdsAfter_inEX (hpath : lat cfg i.op = 1 ∨ 1 ≤ cfg.exeqSize) : HoldsAfter cfg i (4 + lat cfg i.op) (inEX i) := by
  by_cases hlat : lat cfg i.op = 1
  · rw [hlat]
    exact (holdsAfter_inSC hi).move (moves_inSC_inEX hi hlat)
  · have hsize := hpath.resolve_left hlat
    have hpos := lat_pos cfg i.op
    have hlast := holdsAfter_inEXEQ hi hsize (lat cfg i.op - 2) (by omega)
    rw [show lat cfg i.op - 1 - (lat cfg i.op - 2) = 1 by omega] at hlast
    have hmove := hlast.move (moves_inEXEQ_inEX hi hsize)
    rwa [show 5 + (lat cfg i.op - 2) + 1 = 4 + lat cfg i.op by omega] at hmove

theorem holdsAfter_written (hpath : lat cfg i.op = 1 ∨ 1 ≤ cfg.exeqSize) :
    HoldsAfter cfg i (5 + lat cfg i.op) (written i) := by
  have hmove := (holdsAfter_inEX hi hpath).move (moves_inEX_written hi)
  rwa [show 4 + lat cfg i.op + 1 = 5 + lat cfg i.op by omega] at hmove

theorem committed_after (hpath : lat cfg i.op = 1 ∨ 1 ≤ cfg.exeqSize) :
    ∃ u, ticks (6 + lat cfg i.op) (State.resetWith cfg [encode i]) = .next u ∧
      u.run = { runAt (6 + lat cfg i.op) with halted := true, retiredCount := 1 } ∧ inPhase u 1 .committed = true := by
  obtain ⟨u, hu, hsolo, hrun⟩ := holdsAfter_written hi hpath
  obtain ⟨t, ht, hrun', hphase⟩ := step_written hi hsolo hrun
  have hticks := ticks_succ hu ht
  rw [show 5 + lat cfg i.op + 1 = 6 + lat cfg i.op by omega] at hticks hrun'
  exact ⟨t, hticks, hrun', hphase⟩

end

/-! ## The state of the instruction -/

section
variable (h : Solo cfg o s)
include h

theorem Solo.robHolds (hslot : o.slot.valid = true ∧ o.slot.inst.seq = q) {p : RobSlot → Bool} (hp : p o.slot = true) :
    robHolds s q p = true := by
  rw [Machine.robHolds, List.any_eq_true]
  refine ⟨o.slot, ?_, by simp [hslot, hp]⟩
  rw [h.rob]
  exact List.mem_set (by rw [List.length_replicate]; exact cfg.one_le_robSize) _

theorem Solo.exeqHolds {x : Inst} (hq : o.queue = some x) (hsize : 0 < cfg.exeqSize) (hseq : x.seq = q) {p : Inst → Bool}
    (hp : p x = true) : exeqHolds s q p = true := by
  obtain ⟨y, hexeq, hrecord⟩ := h.exeq
  obtain ⟨hvalid, rfl⟩ := ExeqSlot.valid_of_record (hrecord.trans hq)
  rw [Machine.exeqHolds, List.any_eq_true]
  refine ⟨y, ?_, by simp [hvalid, hseq, hp]⟩
  rw [hexeq]
  exact List.mem_set (by simpa using hsize) _

theorem Solo.not_travels (hsc : o.sc = none) (hq : o.queue = none) (hex : o.ex = none) : travels s q = false := by
  have hSC : laneRecords s.latchSC = [] := by rw [h.latchSC.records cfg.one_le_pipeWidth, hsc]; rfl
  have hEX : laneRecords s.latchEX = [] := by rw [h.latchEX.records (wbWidth_pos cfg), hex]; rfl
  have hexeq : exeqRecords s = [] := by
    rw [exeqRecords_eq_filterMap, List.filterMap_eq_nil_iff]
    exact fun x hx => ExeqSlot.record_of_invalid (h.exeqInvalid hq x hx)
  rw [Bool.eq_false_iff, Ne, travels_iff, travellers, hSC, hEX, hexeq]
  simp

end

theorem latchHolds_of_record {n : Nat} {x : Inst} {latch : List Lane} (h : HoldsFirst n (some x) latch) (hn : 0 < n) :
    latchHolds latch x.seq = true := (h.latchHolds hn _).mpr ⟨x, rfl, rfl⟩

/-- The instruction is in state `p`, and the run has not ended. -/
def UnderwayAt (s : State) (p : Phase) : Prop := inPhase s 1 p = true ∧ s.halted = false

theorem FetchedOnce.underway (hrun : FetchedOnce s) (h : Solo cfg (inFE i) s) : UnderwayAt s .fetched :=
  ⟨latchHolds_of_record h.latchFE cfg.one_le_pipeWidth, hrun.halted⟩

/-- What the machine holds decides the state of the instruction. -/
theorem HoldsAfter.underway {n : Nat} {p : Phase} (h : HoldsAfter cfg i n o)
    (hphase : ∀ s, Solo cfg o s → inPhase s 1 p = true) :
    ∃ u, ticks n (State.resetWith cfg [encode i]) = .next u ∧ UnderwayAt u p :=
  let ⟨u, hu, hsolo, hrun⟩ := h
  ⟨u, hu, hphase u hsolo, congrArg Run.halted hrun⟩

theorem inPhase_decoded (h : Solo cfg (inID i) s) : inPhase s 1 .decoded = true :=
  latchHolds_of_record h.latchID cfg.one_le_pipeWidth

theorem inPhase_ready (h : Solo cfg (inROB i) s) : inPhase s 1 .ready = true := h.robHolds ⟨rfl, rfl⟩ rfl

theorem inPhase_scheduled (h : Solo cfg (inSC i) s) : inPhase s 1 .scheduled = true := by
  rw [inPhase, h.robHolds (q := 1) ⟨rfl, rfl⟩ rfl]
  exact latchHolds_of_record h.latchSC cfg.one_le_pipeWidth

theorem inPhase_executing {w : Nat} (hw : 0 < w) (hsize : 0 < cfg.exeqSize) (h : Solo cfg (inEXEQ i w) s) :
    inPhase s 1 .executing = true := by
  rw [inPhase, h.robHolds (q := 1) ⟨rfl, rfl⟩ rfl]
  exact h.exeqHolds (p := fun x => decide (0 < x.wait)) rfl hsize rfl (decide_eq_true hw)

theorem inPhase_executed (h : Solo cfg (inEX i) s) : inPhase s 1 .executed = true := by
  rw [inPhase, h.robHolds (q := 1) ⟨rfl, rfl⟩ rfl]
  exact latchHolds_of_record h.latchEX (wbWidth_pos cfg)

theorem inPhase_completed (h : Solo cfg (written i) s) : inPhase s 1 .completed = true := by
  rw [inPhase, h.robHolds (q := 1) ⟨rfl, rfl⟩ rfl, h.not_travels rfl rfl rfl]
  rfl

/-- The timeline read by its entries. -/
theorem aloneTimeline_cases {n k : Nat} {p : Phase} (hn : 1 ≤ n) (h : (aloneTimeline n)[k]? = some p) :
    (k = 0 ∧ p = .fetched) ∨ (k = 1 ∧ p = .decoded) ∨ (k = 2 ∧ p = .ready) ∨ (k = 3 ∧ p = .scheduled) ∨
    (∃ j, k = 4 + j ∧ j + 1 < n ∧ p = .executing) ∨ (k = 3 + n ∧ p = .executed) ∨ (k = 4 + n ∧ p = .completed) ∨
    (k = 5 + n ∧ p = .committed) := by
  obtain ⟨m, rfl⟩ := Nat.exists_eq_add_of_le hn
  match k with
  | 0 | 1 | 2 | 3 => cases h; simp
  | k + 4 =>
    have hrest : (List.replicate m Phase.executing ++ [.executed, .completed, .committed])[k]? = some p := by
      simpa [aloneTimeline] using h
    by_cases hk : k < m
    · rw [List.getElem?_append_left (by simpa using hk), List.getElem?_replicate, if_pos hk] at hrest
      cases hrest
      exact .inr (.inr (.inr (.inr (.inl ⟨k, by omega, by omega, rfl⟩))))
    · obtain ⟨j, rfl⟩ := Nat.exists_eq_add_of_le (Nat.le_of_not_lt hk)
      rw [List.getElem?_append_right (by simp), List.length_replicate, Nat.add_sub_cancel_left] at hrest
      match j with
      | 0 => cases hrest; exact .inr (.inr (.inr (.inr (.inr (.inl ⟨by omega, rfl⟩)))))
      | 1 => cases hrest; exact .inr (.inr (.inr (.inr (.inr (.inr (.inl ⟨by omega, rfl⟩))))))
      | 2 => cases hrest; exact .inr (.inr (.inr (.inr (.inr (.inr (.inr ⟨by omega, rfl⟩))))))
      | j + 3 => cases hrest

/-- Every state of the timeline before the last, in its tick. -/
theorem underway_after (hi : i.wellFormed cfg.numArchRegs = true) (hpath : lat cfg i.op = 1 ∨ 1 ≤ cfg.exeqSize) {k : Nat}
    {p : Phase} (h : (aloneTimeline (lat cfg i.op))[k]? = some p) (hp : p ≠ .committed) :
    ∃ u, ticks (k + 1) (State.resetWith cfg [encode i]) = .next u ∧ UnderwayAt u p := by
  rcases aloneTimeline_cases (lat_pos cfg i.op) h with ⟨rfl, rfl⟩ | ⟨rfl, rfl⟩ | ⟨rfl, rfl⟩ | ⟨rfl, rfl⟩ |
    ⟨j, rfl, hj, rfl⟩ | ⟨rfl, rfl⟩ | ⟨rfl, rfl⟩ | ⟨rfl, rfl⟩
  case inl =>
    obtain ⟨u, hu, hsolo, hrun⟩ := fetched_after_one hi
    exact ⟨u, hu, hrun.underway hsolo⟩
  case inr.inl => exact (holdsAfter_inID hi).underway fun _ => inPhase_decoded
  case inr.inr.inl => exact (holdsAfter_inROB hi).underway fun _ => inPhase_ready
  case inr.inr.inr.inl => exact (holdsAfter_inSC hi).underway fun _ => inPhase_scheduled
  case inr.inr.inr.inr.inl =>
    have hsize := hpath.resolve_left (by omega)
    rw [show 4 + j + 1 = 5 + j by omega]
    exact (holdsAfter_inEXEQ hi hsize j hj).underway fun _ => inPhase_executing (by omega) hsize
  case inr.inr.inr.inr.inr.inl =>
    rw [show 3 + lat cfg i.op + 1 = 4 + lat cfg i.op by omega]
    exact (holdsAfter_inEX hi hpath).underway fun _ => inPhase_executed
  case inr.inr.inr.inr.inr.inr.inl =>
    rw [show 4 + lat cfg i.op + 1 = 5 + lat cfg i.op by omega]
    exact (holdsAfter_written hi hpath).underway fun _ => inPhase_completed
  case inr.inr.inr.inr.inr.inr.inr => exact absurd rfl hp

/-- Settles O60: each tick's state in turn, and the retirement in tick 6 + LAT. -/
theorem oneRecordTraceTakesSevenStages : Obligations.OneRecordTraceTakesSevenStages := by
  intro cfg i hi hpath
  obtain ⟨u, hu, hrun, hphase⟩ := committed_after hi hpath
  have hhalted : u.halted = true := congrArg Run.halted hrun
  refine ⟨fun k p hk => ?_, u, hu, hhalted, congrArg Run.fault hrun, congrArg Run.retiredCount hrun,
    congrArg Run.cycleCount hrun⟩
  by_cases hp : p = .committed
  · subst hp
    have hlast : k = 5 + lat cfg i.op := by
      have hcases := aloneTimeline_cases (lat_pos cfg i.op) hk
      simp only [reduceCtorEq, and_false, false_or, exists_false, and_true] at hcases
      exact hcases
    subst hlast
    rw [show 5 + lat cfg i.op + 1 = 6 + lat cfg i.op by omega]
    exact ⟨u, hu, hphase, iff_of_true hhalted rfl⟩
  · obtain ⟨v, hv, hphase', hrunning⟩ := underway_after hi hpath hk hp
    exact ⟨v, hv, hphase', iff_of_false (by rw [hrunning]; decide) hp⟩

end

end Sys2Proof.Machine
end

section
/-! PROOFS. The moves a tick is made of: every stage is a sequence of moves of its own kind, each of which carries one
instruction one place on, ages the EXEQ or reads the stream once; a fault, where one is raised, is written after them
(43_driver_frontend.md R166, R167). What every move keeps, every step keeps. -/

namespace Sys2Proof.Machine

/-- The stages of a tick, in their order (43_driver_frontend.md R166). -/
inductive Stage where
  | commit
  | writeback
  | execute
  | schedule
  | issue
  | decode
  | fetch

/-- The record that Issue makes of `x`: the tail slot as its tag, each source with the mapping of its register and the
readiness the ROB reports for that (44_issue_rename.md R187, R189). -/
def issuedInst (s : State) (x : Inst) : Inst :=
  { x with
    drTag := some s.robTail
    src1Tag := x.src1.bind s.ratAt
    src1Ready := ((x.src1.bind s.ratAt).map (fun m => (s.robAt m).ready)).getD true
    src2Tag := x.src2.bind s.ratAt
    src2Ready := ((x.src2.bind s.ratAt).map (fun m => (s.robAt m).ready)).getD true }

/-- What the trace port may hold: a record in range, a malformed word or the end (30_encoding.md R100). -/
def ItemOk (cfg : Config) (item : TraceItem) : Prop := ∀ i, item = .record i → i.wellFormed cfg.numArchRegs = true

/-- One move of a stage. -/
inductive Move : Stage → State → State → Prop where
  | retire {s u : State} {x : Inst} (h : robRemoveHead s = .ok x u) : Move .commit s (retire x u)
  | writeback {s t : State} {k g : Nat} (h : WrittenBack s t k g) : Move .writeback s t
  | bypass {s : State} {i k : Nat} (hlane : (s.scAt i).valid = true) (hlat : lat s.cfg (s.scAt i).inst.op = 1)
      (hk : freeExLane s = some k) : Move .execute s (emptySC i (putEX k (s.scAt i).inst s))
  | enqueue {s : State} {i q : Nat} (hlane : (s.scAt i).valid = true) (hlat : 1 < lat s.cfg (s.scAt i).inst.op)
      (hq : freeExeqSlot s = some q) : Move .execute s (emptySC i (s.setExeq q
        { valid := true, inst := { (s.scAt i).inst with wait := lat s.cfg (s.scAt i).inst.op } }))
  | age {s : State} : Move .execute s (exeqCycle s)
  | drain {s u : State} {k : Nat} {x : Inst} (hk : freeExLane s = some k) (hx : exeqRemoveFinished s = some (x, u)) :
      Move .execute s (putEX k x u)
  | schedule {s t : State} {i g : Nat} (hi : i < s.cfg.pipeWidth) (h : Scheduled s t i g) : Move .schedule s t
  | issue {s t : State} {j : Nat} (hj : oldestLane s.latchID = some j)
      (h : Issued s t j (issuedInst s (s.idAt j).inst)) : Move .issue s t
  | decode {s : State} {i j : Nat} (hvalid : (s.idAt i).valid = false) (hstall : (s.idAt i).stall = false)
      (hj : oldestLane s.latchFE = some j) : Move .decode s (moveToID i j s)
  | fetch {s : State} {k : Nat} {item : TraceItem} (heos : s.eosSeen = false) (hvalid : (s.feAt k).valid = false)
      (hstall : (s.feAt k).stall = false) (hitem : ItemOk s.cfg item) : Move .fetch s (fetchInto k item s)

/-- A sequence of moves of one stage. -/
def Path (st : Stage) : State → State → Prop := Relation.ReflTransGen (Move st)

/-- The state of a result is reached by moves of the stage; a raised fault is written after them. -/
def Reaches {α : Type} (st : Stage) (s : State) : Res α → Prop
  | .ok _ t => Path st s t
  | .raised t => ∃ u c, Path st s u ∧ t = u.setFault c

section
variable {α β : Type} {st : Stage} {s t u : State}

theorem Move.path (h : Move st s t) : Path st s t := .single h

theorem Path.refl (st : Stage) (s : State) : Path st s s := Relation.ReflTransGen.refl

theorem Path.trans (h : Path st s t) (h' : Path st t u) : Path st s u := Relation.ReflTransGen.trans h h'

/-- What every move of the stage keeps, its moves keep. -/
theorem Path.keeps {P : State → Prop} (hP : ∀ u v, Move st u v → P u → P v) (h : Path st s t) (hs : P s) : P t := by
  induction h with
  | refl => exact hs
  | tail _ hmove ih => exact hP _ _ hmove ih

theorem reaches_ok (st : Stage) (a : α) (s : State) : Reaches st s (.ok a s) := .refl st s

theorem reaches_raise (st : Stage) (c : FaultCode) (s : State) : Reaches st s (raise c s : Res α) :=
  ⟨s, c, .refl st s, rfl⟩

theorem Path.reaches {x : Res α} (h : Path st s t) (hx : Reaches st t x) : Reaches st s x := by
  cases x with
  | ok a v => exact h.trans hx
  | raised v =>
    obtain ⟨w, c, hw, hv⟩ := hx
    exact ⟨w, c, h.trans hw, hv⟩

theorem Reaches.bind {x : Res α} {f : α → State → Res β} (hx : Reaches st s x)
    (hf : ∀ a u, x = .ok a u → Reaches st u (f a u)) : Reaches st s (x.bind f) := by
  cases x with
  | ok a u => exact Path.reaches hx (hf a u rfl)
  | raised u =>
    obtain ⟨w, c, hw, hu⟩ := hx
    exact ⟨w, c, hw, hu⟩

/-! ## What the moves of a stage write -/

/-- The fields a stage writes. -/
def Stage.Frame : Stage → State → State → Prop
  | .commit, s, t => t = { s with
      rat := t.rat, rob := t.rob, robHead := t.robHead, retiredCount := t.retiredCount, halted := t.halted }
  | .writeback, s, t => t = { s with rob := t.rob, latchEX := t.latchEX }
  | .execute, s, t => t = { s with exeq := t.exeq, latchSC := t.latchSC, latchEX := t.latchEX }
  | .schedule, s, t => t = { s with rob := t.rob, latchSC := t.latchSC }
  | .issue, s, t => t = { s with rat := t.rat, rob := t.rob, robTail := t.robTail, latchID := t.latchID }
  | .decode, s, t => t = { s with latchFE := t.latchFE, latchID := t.latchID }
  | .fetch, s, t => t = { s with
      latchFE := t.latchFE, lastSeq := t.lastSeq, eosSeen := t.eosSeen, haltSeq := t.haltSeq, halted := t.halted
      tracePos := t.tracePos }

theorem Stage.Frame.refl (st : Stage) (s : State) : st.Frame s s := by cases st <;> rfl

theorem Stage.Frame.trans (h : st.Frame s t) (h' : st.Frame t u) : st.Frame s u := by
  cases st <;> (unfold Stage.Frame at h h' ⊢; rw [h', h])

theorem Move.frame (h : Move st s t) : st.Frame s t := by
  cases h with
  | retire h =>
    obtain ⟨-, -, -, rfl⟩ := robRemoveHead_eq_ok h
    rw [retire_eq]
    rfl
  | writeback h => unfold Stage.Frame; rw [h.frame]
  | bypass => rfl
  | enqueue => rfl
  | age => rfl
  | drain hk hx =>
    obtain ⟨q, -, -, -, rfl⟩ := exeqRemoveFinished_eq_some hx
    rfl
  | schedule hi h => unfold Stage.Frame; rw [h.frame]
  | issue hj h => unfold Stage.Frame; rw [h.frame]
  | decode => rfl
  | @fetch _ k item =>
    cases item <;> rfl

theorem Path.frame (h : Path st s t) : st.Frame s t :=
  h.keeps (P := st.Frame s) (fun _ _ hmove hu => hu.trans hmove.frame) (.refl st s)

theorem Stage.Frame.cfg (h : st.Frame s t) : t.cfg = s.cfg := by
  cases st <;> (unfold Stage.Frame at h; rw [h])

theorem Stage.Frame.fault (h : st.Frame s t) : t.fault = s.fault := by
  cases st <;> (unfold Stage.Frame at h; rw [h])

theorem Path.cfg (h : Path st s t) : t.cfg = s.cfg := h.frame.cfg

theorem reaches_forLanes {f : Nat → State → Res Unit} {ks : List Nat}
    (hf : ∀ k ∈ ks, ∀ u, u.cfg = s.cfg → Reaches st u (f k u)) : Reaches st s (forLanes f ks s) := by
  induction ks generalizing s with
  | nil => exact reaches_ok st () s
  | cons k ks ih =>
    have hlane := hf k List.mem_cons_self s rfl
    refine hlane.bind fun _ u hu => ?_
    have hpath : Path st s u := by rw [hu] at hlane; exact hlane
    exact ih fun j hj v hv => hf j (List.mem_cons_of_mem _ hj) v (hv.trans hpath.cfg)

/-! ## Every stage is a sequence of its moves -/

/-- The state after one commit of a ready head (47_commit.md R236). -/
def retireHead (s : State) : State :=
  retire (s.robAt s.robHead).inst
    { s.setRob s.robHead { s.robAt s.robHead with valid := false, exec := false, ready := false } with
      robHead := nextSlot s s.robHead }

theorem robRemoveHead_of_ready (h : robHeadIsReady s = true) : robRemoveHead s = .ok (s.robAt s.robHead).inst
    { s.setRob s.robHead { s.robAt s.robHead with valid := false, exec := false, ready := false } with
      robHead := nextSlot s s.robHead } := if_pos h

theorem commitUpTo_succ_of_ready (n : Nat) (h : robHeadIsReady s = true) :
    commitUpTo (n + 1) s = commitUpTo n (retireHead s) := by
  rw [commitUpTo, if_pos h, robRemoveHead_of_ready h, Res.bind_ok]
  rfl

theorem move_retireHead (h : robHeadIsReady s = true) : Move .commit s (retireHead s) :=
  .retire (robRemoveHead_of_ready h)

@[simp] theorem retireHead_retiredCount (s : State) : (retireHead s).retiredCount = s.retiredCount + 1 := by
  rw [retireHead, retire_eq]
  rfl

theorem reaches_commitUpTo : ∀ n s, Reaches .commit s (commitUpTo n s)
  | 0, s => reaches_ok _ () s
  | n + 1, s => by
    by_cases hready : robHeadIsReady s = true
    · rw [commitUpTo_succ_of_ready n hready]
      exact (move_retireHead hready).path.reaches (reaches_commitUpTo n _)
    · rw [commitUpTo_idle (Bool.not_eq_true _ ▸ hready)]
      exact reaches_ok _ () s

theorem reaches_writebackLane (k : Nat) (s : State) : Reaches .writeback s (writebackLane k s) := by
  cases hlane : writebackLane k s with
  | ok _ t =>
    rcases writebackLane_cases hlane with ⟨-, rfl⟩ | ⟨g, hg⟩
    · exact reaches_ok _ () t
    · exact (Move.writeback hg).path
  | raised t =>
    refine ⟨s, .staleTag, .refl _ s, ?_⟩
    unfold writebackLane at hlane
    split at hlane
    · split at hlane
      · cases hlane; rfl
      · rcases Res.bind_eq_raised.mp hlane with hraise | ⟨_, _, _, hok⟩
        · exact (robMarkReady_eq_raised hraise).2
        · cases hok
    · cases hlane

theorem reaches_bypassLane (i : Nat) (s : State) : Reaches .execute s (bypassLane i s) := by
  unfold bypassLane
  split
  next hcond =>
    simp only [Bool.and_eq_true, beq_iff_eq] at hcond
    split
    next => exact reaches_ok _ () s
    next k hk => exact (Move.bypass hcond.1 hcond.2 hk).path
  next => exact reaches_ok _ () s

theorem reaches_enqueueLane (i : Nat) (s : State) : Reaches .execute s (enqueueLane i s) := by
  unfold enqueueLane
  split
  next hcond =>
    simp only [Bool.and_eq_true, decide_eq_true_eq] at hcond
    unfold exeqInsert
    split
    next => exact reaches_raise _ _ s
    next q hq => exact (Move.enqueue hcond.1 hcond.2 hq).path
  next => exact reaches_ok _ () s

theorem path_drainUpTo (n : Nat) (s : State) : Path .execute s (drainUpTo n s) :=
  drainUpTo_keeps (P := Path .execute s) (fun _ _ _ _ hu hk hx => hu.trans (Move.drain hk hx).path) n s (.refl _ s)

theorem reaches_execute (s : State) : Reaches .execute s (execute s) := by
  refine (reaches_forLanes fun i _ u _ => reaches_bypassLane i u).bind fun _ u _ => ?_
  refine (reaches_forLanes fun i _ v _ => reaches_enqueueLane i v).bind fun _ v _ => ?_
  exact Move.age.path.trans (path_drainUpTo _ _)

theorem reaches_scheduleLane {i : Nat} {s : State} (hi : i < s.cfg.pipeWidth) :
    Reaches .schedule s (scheduleLane i s) := by
  cases hlane : scheduleLane i s with
  | ok _ t =>
    rcases scheduleLane_cases hlane with ⟨rfl, -⟩ | ⟨g, hg⟩
    · exact reaches_ok _ () t
    · exact (Move.schedule hi hg).path
  | raised t => exact absurd hlane scheduleLane_ne_raised

/-- What resolving a source answers: the mapping of its register and the readiness of the slot it names (R187). -/
theorem resolveSource_answer {src : Option Nat} {a : Option Nat × Bool} (h : resolveSource src s = .ok a t) :
    a = (src.bind s.ratAt, ((src.bind s.ratAt).map fun m => (s.robAt m).ready).getD true) := by
  obtain ⟨-, ⟨hnone, rfl⟩ | ⟨m, hm, -, rfl⟩⟩ := resolveSource_eq_ok h
  · rw [hnone]; rfl
  · rw [hm]; rfl

/-- An issue with the record it inserts (R186, R187, R189). -/
theorem issued_of_issueOne {j : Nat} (h : issueOne j s = .ok () t) : Issued s t j (issuedInst s (s.idAt j).inst) := by
  obtain ⟨a, b, g, u, ha, hb, hinsert, rfl⟩ := issueOne_eq_ok h
  obtain rfl := resolveSource_answer ha
  obtain rfl := resolveSource_answer hb
  obtain ⟨hfree, rfl, rfl⟩ := robInsert_eq_ok hinsert
  obtain ⟨hframe, hlength, hat⟩ := renameDest_eq (s.idAt j).inst.dest s.robTail
    { s.setRob s.robTail
        { valid := true, exec := false, ready := false, inst := issuedInst s (s.idAt j).inst } with
      robTail := nextSlot s s.robTail }
  refine ⟨by rw [robHasSpace, hfree]; rfl, rfl, rfl, rfl, hlength, hat, ?_⟩
  unfold issuedInst at hframe ⊢
  rw [hframe]
  rfl

/-- Where an issue raises, it has written nothing yet. -/
theorem issueOne_eq_raised {j : Nat} (h : issueOne j s = .raised t) : ∃ c, t = s.setFault c := by
  rcases Res.bind_eq_raised.mp h with h | ⟨x, u, hx, h⟩
  · rcases Res.bind_eq_raised.mp h with h | ⟨a, u, ha, h⟩
    · obtain ⟨m, -, -, rfl⟩ := resolveSource_eq_raised h
      exact ⟨_, rfl⟩
    · obtain ⟨rfl, -⟩ := resolveSource_eq_ok ha
      rcases Res.bind_eq_raised.mp h with h | ⟨b, v, hb, h⟩
      · obtain ⟨m, -, -, rfl⟩ := resolveSource_eq_raised h
        exact ⟨_, rfl⟩
      · cases h
  · obtain ⟨a, v, ha, hx⟩ := Res.bind_eq_ok.mp hx
    obtain ⟨rfl, -⟩ := resolveSource_eq_ok ha
    obtain ⟨b, w, hb, hx⟩ := Res.bind_eq_ok.mp hx
    obtain ⟨rfl, -⟩ := resolveSource_eq_ok hb
    cases hx
    rcases Res.bind_eq_raised.mp h with h | ⟨g, v, _, h⟩
    · exact ⟨_, (robInsert_eq_raised h).2⟩
    · cases h

theorem reaches_issueUpTo : ∀ n s, Reaches .issue s (issueUpTo n s)
  | 0, s => reaches_ok _ () s
  | n + 1, s => by
    unfold issueUpTo
    split
    · split
      · exact reaches_ok _ () s
      next j hj =>
        cases hone : issueOne j s with
        | ok _ t => exact (Move.issue hj (issued_of_issueOne hone)).path.reaches (reaches_issueUpTo n t)
        | raised t =>
          obtain ⟨c, rfl⟩ := issueOne_eq_raised hone
          exact reaches_raise _ c s
    · exact reaches_ok _ () s

theorem path_decode (s : State) : Path .decode s (decode s) :=
  decodeLanes_keeps (P := Path .decode s) (fun _ _ _ hu hv hst hj => hu.trans (Move.decode hv hst hj).path) _ s (.refl _ s)

theorem itemOk_nextItem (s : State) : ItemOk s.cfg (nextItem s) := by
  intro i hi
  unfold nextItem at hi
  split at hi
  · cases hi
  · split at hi
    next hd =>
      cases hi
      have hoffered := offered_of_decodeRecord hd
      unfold offered at hoffered
      split at hoffered
      next hwf => exact hwf
      next => cases hoffered
    next => cases hi

theorem itemOk_offered (cfg : Config) (i : Instr) : ItemOk cfg (offered cfg i) := by
  intro j hj
  unfold offered at hj
  split at hj
  next hwf => cases hj; exact hwf
  next => cases hj

theorem path_fetchLanes : ∀ (ks : List Nat) (first : Option TraceItem) (s : State),
    (∀ item ∈ first, ItemOk s.cfg item) → Path .fetch s (fetchLanes ks first s)
  | [], _, s, _ => .refl _ s
  | k :: ks, first, s, hfirst => by
    unfold fetchLanes
    split
    next => exact .refl _ s
    next heos =>
      split
      next => exact path_fetchLanes ks first s hfirst
      next hfree =>
        simp only [Bool.or_eq_true, not_or, Bool.not_eq_true] at hfree heos
        have hitem : ItemOk s.cfg (first.getD (nextItem s)) := by
          cases first with
          | none => exact itemOk_nextItem s
          | some item => exact hfirst item rfl
        exact (Move.fetch heos hfree.1 hfree.2 hitem).path.trans
          (path_fetchLanes ks none _ fun item hnone => nomatch hnone)

theorem path_fetch {item : TraceItem} (hitem : ItemOk s.cfg item) : Path .fetch s (fetch item s) :=
  path_fetchLanes _ _ s fun _ he => Option.some.inj he ▸ hitem

/-! ## What every move keeps -/

theorem Reaches.state_keeps {P : State → Prop} {x : Res α} (hP : ∀ u v, Move st u v → P u → P v)
    (hfault : ∀ u c, P u → P (u.setFault c)) (h : Reaches st s x) (hs : P s) : P x.state := by
  cases x with
  | ok a t => exact Path.keeps hP h hs
  | raised t =>
    obtain ⟨u, c, hu, rfl⟩ := h
    exact hfault u c (hu.keeps hP hs)

theorem Res.state_bind {P : State → Prop} {x : Res α} {f : α → State → Res β} (hx : P x.state)
    (hf : ∀ a u, P u → P (f a u).state) : P (x.bind f).state := by
  cases x with
  | ok a u => exact hf a u hx
  | raised u => exact hx

/-- What Commit leaves and every later move and the fault register keep, the stages before Fetch leave. -/
theorem beforeFetch_keeps_of_commit {P : State → Prop} (hfault : ∀ u c, P u → P (u.setFault c))
    (hP : ∀ st u v, st ≠ .commit → st ≠ .fetch → Move st u v → P u → P v)
    (hs : P (commit { s with cycleCount := s.cycleCount + 1 }).state) : P (beforeFetch s).state := by
  refine Res.state_bind hs fun _ u hu => ?_
  refine Res.state_bind ((reaches_forLanes fun k _ v _ => reaches_writebackLane k v).state_keeps
    (fun v w => hP .writeback v w (by simp) (by simp)) hfault hu) fun _ u hu => ?_
  refine Res.state_bind ((reaches_execute u).state_keeps (fun v w => hP .execute v w (by simp) (by simp)) hfault hu)
    fun _ u hu => ?_
  refine Res.state_bind ((reaches_forLanes fun i hi v hv => reaches_scheduleLane ?_).state_keeps
    (fun v w => hP .schedule v w (by simp) (by simp)) hfault hu) fun _ u hu => ?_
  · rw [hv]; exact List.mem_range.mp hi
  refine Res.state_bind ((reaches_issueUpTo _ u).state_keeps (fun v w => hP .issue v w (by simp) (by simp)) hfault hu)
    fun _ u hu => ?_
  exact (path_decode u).keeps (fun v w => hP .decode v w (by simp) (by simp)) hu

section
variable {P : State → Prop} (hP : ∀ st u v, Move st u v → P u → P v) (hfault : ∀ u c, P u → P (u.setFault c))
include hP hfault

/-- What every move keeps and the fault register leaves alone, the stages before Fetch keep. -/
theorem beforeFetch_keeps (hs : P { s with cycleCount := s.cycleCount + 1 }) : P (beforeFetch s).state :=
  beforeFetch_keeps_of_commit hfault (fun st u v _ _ => hP st u v)
    ((reaches_commitUpTo _ _).state_keeps (hP _) hfault hs)

end

theorem cfg_beforeFetch (h : beforeFetch s = .ok () u) : u.cfg = s.cfg := by
  have hcfg := beforeFetch_keeps (P := fun v => v.cfg = s.cfg) (s := s) (fun _ _ _ hmove hv => hmove.frame.cfg.trans hv)
    (fun _ _ hv => hv) rfl
  rwa [h] at hcfg

/-- What every move keeps and neither the fault register nor the cycle count touches, a tick keeps. -/
theorem tick_keeps {P : State → Prop} (hP : ∀ st u v, Move st u v → P u → P v)
    (hfault : ∀ u c, P u → P (u.setFault c)) (hcount : ∀ u n, P u → P { u with cycleCount := n }) {item : TraceItem}
    (hitem : ItemOk s.cfg item) (hs : P s) : P (tick item s) := by
  have hall := beforeFetch_keeps hP hfault (s := s) (hcount s _ hs)
  rcases tick_cases item s with ⟨-, htick⟩ | ⟨-, u, hu, htick⟩ | ⟨-, u, hu, htick⟩
  · rwa [htick]
  · rw [hu] at hall
    rw [htick]
    exact (path_fetch (cfg_beforeFetch hu ▸ hitem)).keeps (hP _) hall
  · rw [hu] at hall
    rwa [htick]

/-- Every instruction and every step is a tick on a machine state, with something legal at the port. -/
theorem tick_of_next {i : Instr} (h : exec i s = .next t ∨ step s = .next t) :
    ∃ item, ItemOk s.cfg item ∧ wellShaped s = true ∧ t = tick item s := by
  rcases h with h | h
  · rw [exec_eq_clock, clock_eq_next] at h
    exact ⟨_, itemOk_offered s.cfg i, h⟩
  · rw [step_eq_clock, clock_eq_next] at h
    exact ⟨_, itemOk_nextItem s, h⟩

end

end Sys2Proof.Machine
end

section
/-! PROOFS. What follows from the moves of a tick alone: what no tick writes, what the end of the stream stops, and the
counters. -/

namespace Sys2Proof.Machine

section
variable {st : Stage} {s t u : State}

/-! ## Configuration, trace and stall flags (10_state.md R44, 20_memory.md R78) -/

/-- The stall flags of a latch, by lane. -/
def stalls (latch : List Lane) : List Bool := latch.map (fun l => l.stall)

theorem stalls_set {latch : List Lane} {k : Nat} {l : Lane} (hl : l.stall = (latch.getD k .empty).stall) :
    stalls (latch.set k l) = stalls latch := by
  refine List.ext_getElem (by simp [stalls]) fun j hj hj' => ?_
  simp only [stalls, List.length_map] at hj'
  simp only [stalls, List.getElem_map, List.getElem_set]
  split
  next hkj =>
    subst hkj
    rw [hl, List.getD_eq_getElem _ _ hj']
  next => rfl

/-- `t` has the configuration, the trace and the stall flags of `s`. -/
def SameFixed (s t : State) : Prop :=
  t.cfg = s.cfg ∧ t.trace = s.trace ∧ stalls t.latchFE = stalls s.latchFE ∧ stalls t.latchID = stalls s.latchID ∧
    stalls t.latchSC = stalls s.latchSC ∧ stalls t.latchEX = stalls s.latchEX

theorem SameFixed.trans (h : SameFixed s t) (h' : SameFixed t u) : SameFixed s u := by
  obtain ⟨h1, h2, h3, h4, h5, h6⟩ := h
  obtain ⟨h1', h2', h3', h4', h5', h6'⟩ := h'
  exact ⟨h1'.trans h1, h2'.trans h2, h3'.trans h3, h4'.trans h4, h5'.trans h5, h6'.trans h6⟩

theorem Move.sameFixed (h : Move st s t) : SameFixed s t := by
  have hframe := h.frame
  cases h with
  | retire => unfold Stage.Frame at hframe; rw [hframe]; exact ⟨rfl, rfl, rfl, rfl, rfl, rfl⟩
  | writeback h => rw [h.frame]; exact ⟨rfl, rfl, rfl, rfl, rfl, stalls_set rfl⟩
  | bypass => exact ⟨rfl, rfl, rfl, rfl, stalls_set rfl, stalls_set rfl⟩
  | enqueue => exact ⟨rfl, rfl, rfl, rfl, stalls_set rfl, rfl⟩
  | age => exact ⟨rfl, rfl, rfl, rfl, rfl, rfl⟩
  | drain hk hx =>
    obtain ⟨q, -, -, -, rfl⟩ := exeqRemoveFinished_eq_some hx
    exact ⟨rfl, rfl, rfl, rfl, rfl, stalls_set rfl⟩
  | schedule hi h => rw [h.frame]; exact ⟨rfl, rfl, rfl, rfl, stalls_set rfl, rfl⟩
  | issue hj h => rw [h.frame]; exact ⟨rfl, rfl, rfl, stalls_set rfl, rfl, rfl⟩
  | decode => exact ⟨rfl, rfl, stalls_set rfl, stalls_set rfl, rfl, rfl⟩
  | @fetch _ k item => cases item <;> exact ⟨rfl, rfl, stalls_set rfl, rfl, rfl, rfl⟩

theorem sameFixed_tick {item : TraceItem} (hitem : ItemOk s.cfg item) : SameFixed s (tick item s) :=
  tick_keeps (P := SameFixed s) (fun _ _ _ hmove hu => hu.trans hmove.sameFixed) (fun _ _ hu => hu) (fun _ _ hu => hu)
    hitem ⟨rfl, rfl, rfl, rfl, rfl, rfl⟩

/-- Settles O36: no move writes them. -/
theorem configTraceAndStallAreNeverWritten : Obligations.ConfigTraceAndStallAreNeverWritten := by
  intro i s t h
  obtain ⟨item, hitem, -, rfl⟩ := tick_of_next h
  exact sameFixed_tick hitem

/-! ## The end of the stream (43_driver_frontend.md R171) -/

/-- `t` has the stream's registers of `s`. -/
def SameStream (s t : State) : Prop :=
  t.eosSeen = s.eosSeen ∧ t.tracePos = s.tracePos ∧ t.lastSeq = s.lastSeq ∧ t.haltSeq = s.haltSeq

theorem SameStream.trans (h : SameStream s t) (h' : SameStream t u) : SameStream s u := by
  obtain ⟨h1, h2, h3, h4⟩ := h
  obtain ⟨h1', h2', h3', h4'⟩ := h'
  exact ⟨h1'.trans h1, h2'.trans h2, h3'.trans h3, h4'.trans h4⟩

/-- Only Fetch reads the stream. -/
theorem Stage.Frame.sameStream (h : st.Frame s t) (hst : st ≠ .fetch) : SameStream s t := by
  cases st with
  | fetch => exact absurd rfl hst
  | commit | writeback | execute | schedule | issue | decode =>
    unfold Stage.Frame at h
    rw [h]
    exact ⟨rfl, rfl, rfl, rfl⟩

/-- Settles O38: Fetch moves nothing once the end has been seen, and no other stage writes the stream's registers. -/
theorem endOfStreamIsSticky : Obligations.EndOfStreamIsSticky := by
  intro i s t heos h
  obtain ⟨item, hitem, -, rfl⟩ := tick_of_next h
  have hsame : SameStream s (tick item s) := by
    refine tick_keeps (P := SameStream s) (fun st u v hmove hu => ?_) (fun _ _ hu => hu) (fun _ _ hu => hu) hitem
      ⟨rfl, rfl, rfl, rfl⟩
    cases st with
    | fetch =>
      cases hmove with
      | fetch hopen => exact absurd (heos.symm.trans (hu.1.symm.trans hopen)) (by decide)
    | commit | writeback | execute | schedule | issue | decode => exact hu.trans (hmove.frame.sameStream (by simp))
  obtain ⟨h1, h2, h3, h4⟩ := hsame
  exact ⟨h1.trans heos, h2, h3, h4⟩

/-! ## Counters (10_state.md R54, R55; 49_properties.md section 4) -/

/-- At most `n` retirements in Commit. -/
theorem retiredCount_commitUpTo : ∀ n s, s.retiredCount ≤ (commitUpTo n s).state.retiredCount ∧
    (commitUpTo n s).state.retiredCount ≤ s.retiredCount + n
  | 0, s => ⟨Nat.le_refl _, Nat.le_refl _⟩
  | n + 1, s => by
    by_cases hready : robHeadIsReady s = true
    · have hrest := retiredCount_commitUpTo n (retireHead s)
      rw [retireHead_retiredCount] at hrest
      rw [commitUpTo_succ_of_ready n hready]
      omega
    · rw [commitUpTo_idle (Bool.not_eq_true _ ▸ hready)]
      exact ⟨Nat.le_refl _, Nat.le_add_right _ _⟩

theorem Stage.Frame.retiredCount (h : st.Frame s t) (hst : st ≠ .commit) : t.retiredCount = s.retiredCount := by
  cases st with
  | commit => exact absurd rfl hst
  | writeback | execute | schedule | issue | decode | fetch => unfold Stage.Frame at h; rw [h]

theorem Stage.Frame.cycleCount (h : st.Frame s t) : t.cycleCount = s.cycleCount := by
  cases st <;> (unfold Stage.Frame at h; rw [h])

/-- One read gives at most one number and takes at most one word. -/
theorem counters_fetchInto (k : Nat) (item : TraceItem) (s : State) :
    s.lastSeq ≤ (fetchInto k item s).lastSeq ∧ (fetchInto k item s).lastSeq ≤ s.lastSeq + 1 ∧
      s.tracePos ≤ (fetchInto k item s).tracePos ∧ (fetchInto k item s).tracePos ≤ s.tracePos + 1 := by
  cases item <;> simp [fetchInto, endInput]

theorem counters_fetchLanes : ∀ (ks : List Nat) (first : Option TraceItem) (s : State),
    s.lastSeq ≤ (fetchLanes ks first s).lastSeq ∧ (fetchLanes ks first s).lastSeq ≤ s.lastSeq + ks.length ∧
      s.tracePos ≤ (fetchLanes ks first s).tracePos ∧ (fetchLanes ks first s).tracePos ≤ s.tracePos + ks.length
  | [], _, s => by simp [fetchLanes]
  | k :: ks, first, s => by
    unfold fetchLanes
    rw [List.length_cons]
    split
    next => omega
    next =>
      split
      next =>
        have hrest := counters_fetchLanes ks first s
        omega
      next =>
        have hread := counters_fetchInto k (first.getD (nextItem s)) s
        have hrest := counters_fetchLanes ks none (fetchInto k (first.getD (nextItem s)) s)
        omega

/-- The stages before Fetch count the cycle and the retirements, and leave the stream alone. -/
theorem counters_beforeFetch (s : State) :
    (beforeFetch s).state.cycleCount = s.cycleCount + 1 ∧
      (s.retiredCount ≤ (beforeFetch s).state.retiredCount ∧
        (beforeFetch s).state.retiredCount ≤ s.retiredCount + s.cfg.pipeWidth) ∧
      SameStream s (beforeFetch s).state := by
  refine beforeFetch_keeps_of_commit (P := fun u => u.cycleCount = s.cycleCount + 1 ∧
    (s.retiredCount ≤ u.retiredCount ∧ u.retiredCount ≤ s.retiredCount + s.cfg.pipeWidth) ∧ SameStream s u)
    (fun _ _ hu => hu) (fun st u v hcommit hfetch hmove hu => ?_) ?_
  · obtain ⟨hcycle, hretired, hstream⟩ := hu
    rw [hmove.frame.cycleCount, hmove.frame.retiredCount hcommit]
    exact ⟨hcycle, hretired, hstream.trans (hmove.frame.sameStream hfetch)⟩
  · have hretired := retiredCount_commitUpTo s.cfg.pipeWidth { s with cycleCount := s.cycleCount + 1 }
    have hrest := (reaches_commitUpTo s.cfg.pipeWidth { s with cycleCount := s.cycleCount + 1 }).state_keeps
      (P := fun u => u.cycleCount = s.cycleCount + 1 ∧ SameStream s u)
      (fun u v hmove hu => ⟨hmove.frame.cycleCount.trans hu.1, hu.2.trans (hmove.frame.sameStream (by simp))⟩)
      (fun _ _ hu => hu) ⟨rfl, rfl, rfl, rfl, rfl⟩
    exact ⟨hrest.1, hretired, hrest.2⟩

/-- Settles O37: the cycle once, then at most as many retirements, numbers and reads as there are lanes. -/
theorem countersAdvanceWithinTheWidth : Obligations.CountersAdvanceWithinTheWidth := by
  intro s t hshape hrun h
  rw [step_eq_clock, clock_eq_next] at h
  obtain ⟨-, rfl⟩ := h
  obtain ⟨hcycle, ⟨hlow, hhigh⟩, -, hpos, hlast, -⟩ := counters_beforeFetch s
  rcases tick_cases (nextItem s) s with ⟨hstop, -⟩ | ⟨-, u, hu, htick⟩ | ⟨-, u, hu, htick⟩
  · exact absurd (hrun.symm.trans hstop) (by decide)
  all_goals
    rw [hu] at hcycle hlow hhigh hpos hlast
    simp only [Res.state_ok, Res.state_raised] at hcycle hlow hhigh hpos hlast
    rw [htick]
  · have hframe := (path_fetch (cfg_beforeFetch hu ▸ itemOk_nextItem s)).frame
    have hfetch := counters_fetchLanes (List.range u.cfg.pipeWidth) (some (nextItem s)) u
    rw [List.length_range, cfg_beforeFetch hu] at hfetch
    rw [hframe.cycleCount, hframe.retiredCount (by simp), fetch, cfg_beforeFetch hu]
    omega
  · omega

/-! ## The tick (43_driver_frontend.md R166, R167) -/

/-- Settles O11: the tick is its stages in sequence, and a sequence stops at the first fault. -/
theorem tickEvaluatesStagesInOrder : Obligations.TickEvaluatesStagesInOrder := by
  have hrunning {s : State} (hhalted : s.halted = false) (hfault : s.fault = none) : running s = true := by
    rw [running, hhalted, hfault]
    rfl
  refine ⟨fun item s s1 s2 s3 s4 s5 hhalted hfault h1 h2 h3 h4 h5 => ?_, fun item s u hhalted hfault h => ?_,
    fun item s h => ?_⟩
  · rw [tick, if_pos (hrunning hhalted hfault), beforeFetch_ok h1 h2 h3 h4 h5]
    rfl
  · have hraised : beforeFetch s = .raised u := by
      rcases h with h1 | ⟨s1, h1, h2 | ⟨s2, h2, h3 | ⟨s3, h3, h4 | ⟨s4, h4, h5⟩⟩⟩⟩
      · rw [beforeFetch, h1, Res.bind_raised]
      · rw [beforeFetch, h1, Res.bind_ok, h2, Res.bind_raised]
      · rw [beforeFetch, h1, Res.bind_ok, h2, Res.bind_ok, h3, Res.bind_raised]
      · rw [beforeFetch, h1, Res.bind_ok, h2, Res.bind_ok, h3, Res.bind_ok, h4, Res.bind_raised]
      · rw [beforeFetch, h1, Res.bind_ok, h2, Res.bind_ok, h3, Res.bind_ok, h4, Res.bind_ok, h5, Res.bind_raised]
    rw [tick, if_pos (hrunning hhalted hfault), hraised]
    rfl
  · refine if_neg ?_
    rw [running, Bool.and_eq_true, Bool.not_eq_true', Option.isNone_iff_eq_none]
    rintro ⟨hhalted, hfault⟩
    rcases h with h | h
    · exact Bool.false_ne_true (hhalted.symm.trans h)
    · exact h hfault

/-- Settles O12: a tick of a machine that is not running is nothing. -/
theorem endedMachineStandsStill : Obligations.EndedMachineStandsStill := by
  intro i s hshape hended
  have hstop : running s = false := by
    rw [running, Bool.and_eq_false_iff, Bool.not_eq_false']
    rw [ended, Bool.or_eq_true] at hended
    refine hended.imp_right fun hfault => ?_
    obtain ⟨c, hc⟩ := Option.isSome_iff_exists.mp hfault
    rw [hc]
    rfl
  have htick (item : TraceItem) : tick item s = s := if_neg (by rw [hstop]; decide)
  rw [exec_eq_clock, step_eq_clock]
  exact ⟨clock_eq_next.mpr ⟨hshape, (htick _).symm⟩, clock_eq_next.mpr ⟨hshape, (htick _).symm⟩⟩

/-! ## What the trace port holds (43_driver_frontend.md R170, 20_memory.md R75) -/

theorem nextItem_of_decodeRecord {w : Word} {i : Instr} (hw : s.trace[s.tracePos]? = some w)
    (hi : decodeRecord s.cfg.numArchRegs w = .ok i) : nextItem s = .record i := by
  rw [nextItem, hw]
  simp only [hi]

theorem nextItem_of_malformed {w : Word} (hw : s.trace[s.tracePos]? = some w)
    (hm : malformed s.cfg.numArchRegs w = true) : nextItem s = .malformed := by
  rw [nextItem, hw]
  unfold malformed at hm
  cases hd : decodeRecord s.cfg.numArchRegs w with
  | ok i => rw [hd] at hm; cases hm
  | error e => simp only [hd]

theorem nextItem_of_end (hpos : s.trace.length ≤ s.tracePos) : nextItem s = .endOfStream := by
  rw [nextItem, List.getElem?_eq_none hpos]

theorem fetchWord_encode (i : Instr) : fetchWord 32 (encode i).toNat = encode i := by
  rw [fetchWord, Nat.mod_eq_of_lt (encode i).isLt, BitVec.ofNat_toNat, BitVec.setWidth_eq]

/-- Settles O10: what the port holds, item by item. -/
theorem stepRunsTheDecodedInstruction : Obligations.StepRunsTheDecodedInstruction := by
  have hstep {s : State} {i : Instr} (h : nextItem s = .record i) : step s = exec i s := by rw [step, h]
  refine ⟨fun s w i hw hi => hstep (nextItem_of_decodeRecord hw hi), fun s w hw hm => ?_, fun s hpos => ?_,
    fun s i hi => hstep (nextItem_of_decodeRecord (w := encode i) ?_ (decodeRecord_encode hi))⟩
  · rw [step_eq_clock, nextItem_of_malformed hw hm]
  · rw [step_eq_clock, nextItem_of_end hpos]
  · rw [State.withFetchWord, fetchWord_encode]
    simp

/-! ## Fetch beside the lanes it fills -/

theorem feAt_fetchInto_of_ne {k j : Nat} (hjk : j ≠ k) (item : TraceItem) (s : State) :
    (fetchInto k item s).feAt j = s.feAt j := by
  have hset (v : State) (l : Lane) : (v.setFE k l).feAt j = v.feAt j := by
    rw [State.feAt_setFE, if_neg fun hand => hjk hand.1]
  cases item with
  | record i => exact hset s _
  | malformed => exact hset { s with tracePos := s.tracePos + 1 } _
  | endOfStream => exact hset s _

/-- A fetch lane that holds an instruction keeps it. -/
theorem feAt_fetchLanes_of_valid (ks : List Nat) (first : Option TraceItem) {k : Nat} (hk : (s.feAt k).valid = true) :
    (fetchLanes ks first s).feAt k = s.feAt k := by
  refine fetchLanes_keeps (P := fun u => u.feAt k = s.feAt k) (fun u j item hu _ hfree _ => ?_) ks first s rfl
  have hne : k ≠ j := by
    rintro rfl
    exact Bool.false_ne_true (hfree.symm.trans (hu ▸ hk))
  exact (feAt_fetchInto_of_ne hne item u).trans hu

/-- Settles O35: what the stages before Fetch leave does not depend on the instruction, and Fetch writes what its moves
write. -/
theorem recordTouchesOnlyWhatFetchWrites : Obligations.RecordTouchesOnlyWhatFetchWrites := by
  intro i s hshape hrun
  have hexec {u : State} (htick : tick (offered s.cfg i) s = u) : exec i s = .next u := by
    rw [exec_eq_clock, clock_eq_next]
    exact ⟨hshape, htick.symm⟩
  refine ⟨fun u hu => ⟨fetch (offered s.cfg i) u, hexec ?_, ?_, fun k hk => feAt_fetchLanes_of_valid _ _ hk⟩,
    fun u hu => hexec ?_⟩
  · rw [tick, if_pos hrun, hu]
    rfl
  · exact (path_fetch (cfg_beforeFetch hu ▸ itemOk_offered s.cfg i)).frame
  · rw [tick, if_pos hrun, hu]
    rfl

end

end Sys2Proof.Machine
end

section
/-! PROOFS. The shape of a machine state (log 5): every array keeps its length, every index and every record in use its
range, under every move and under a raised fault. -/

namespace Sys2Proof.Machine

/-- A latch of `n` lanes whose records are in range. -/
structure LatchShaped (cfg : Config) (n : Nat) (latch : List Lane) : Prop where
  length : latch.length = n
  range : ∀ l ∈ latch, l.valid = true → instInRange cfg l.inst = true

/-- What `wellShaped` says, array by array. -/
structure Shaped (s : State) : Prop where
  ratLength : s.rat.length = s.cfg.numArchRegs
  ratRange : ∀ e ∈ s.rat, optBelow s.cfg.robSize e = true
  robLength : s.rob.length = s.cfg.robSize
  robRange : ∀ x ∈ s.rob, x.valid = true → instInRange s.cfg x.inst = true
  headLt : s.robHead < s.cfg.robSize
  tailLt : s.robTail < s.cfg.robSize
  exeqLength : s.exeq.length = s.cfg.exeqSize
  exeqRange : ∀ x ∈ s.exeq, x.valid = true → instInRange s.cfg x.inst = true
  latchFE : LatchShaped s.cfg s.cfg.pipeWidth s.latchFE
  latchID : LatchShaped s.cfg s.cfg.pipeWidth s.latchID
  latchSC : LatchShaped s.cfg s.cfg.pipeWidth s.latchSC
  latchEX : LatchShaped s.cfg s.cfg.wbWidth s.latchEX

section
variable {cfg : Config} {st : Stage} {s t : State} {n : Nat} {latch : List Lane}

theorem bnot_or_eq_true_iff {a b : Bool} : (!a || b) = true ↔ (a = true → b = true) := by cases a <;> simp

theorem latchInRange_iff : latchInRange cfg n latch = true ↔ LatchShaped cfg n latch := by
  simp only [latchInRange, Bool.and_eq_true, beq_iff_eq, List.all_eq_true, bnot_or_eq_true_iff]
  exact ⟨fun ⟨h1, h2⟩ => ⟨h1, h2⟩, fun ⟨h1, h2⟩ => ⟨h1, h2⟩⟩

theorem wellShaped_iff : wellShaped s = true ↔ Shaped s := by
  simp only [wellShaped, Bool.and_eq_true, beq_iff_eq, decide_eq_true_eq, List.all_eq_true, bnot_or_eq_true_iff,
    latchInRange_iff]
  constructor
  · rintro ⟨⟨⟨⟨⟨⟨⟨⟨⟨⟨⟨h1, h2⟩, h3⟩, h4⟩, h5⟩, h6⟩, h7⟩, h8⟩, h9⟩, h10⟩, h11⟩, h12⟩
    exact ⟨h1, h2, h3, h4, h5, h6, h7, h8, h9, h10, h11, h12⟩
  · rintro ⟨h1, h2, h3, h4, h5, h6, h7, h8, h9, h10, h11, h12⟩
    exact ⟨⟨⟨⟨⟨⟨⟨⟨⟨⟨⟨h1, h2⟩, h3⟩, h4⟩, h5⟩, h6⟩, h7⟩, h8⟩, h9⟩, h10⟩, h11⟩, h12⟩

/-! ## One entry written -/

theorem LatchShaped.set (h : LatchShaped cfg n latch) {k : Nat} {l : Lane}
    (hl : l.valid = true → instInRange cfg l.inst = true) : LatchShaped cfg n (latch.set k l) where
  length := List.length_set.trans h.length
  range m hm := (List.mem_or_eq_of_mem_set hm).elim (h.range m) fun he => he ▸ hl

theorem LatchShaped.getD (h : LatchShaped cfg n latch) {k : Nat} (hk : (latch.getD k .empty).valid = true) :
    instInRange cfg (latch.getD k .empty).inst = true := h.range _ (lane_mem_of_valid hk) hk

theorem slot_mem_of_valid {t : Nat} (h : (s.robAt t).valid = true) : s.robAt t ∈ s.rob := by
  have hlt := lt_length_of_slot_valid h
  rw [State.robAt, List.getD_eq_getElem _ _ hlt]
  exact List.getElem_mem hlt

theorem Shaped.robAt (h : Shaped s) {u : Nat} (hu : (s.robAt u).valid = true) :
    instInRange s.cfg (s.robAt u).inst = true := h.robRange _ (slot_mem_of_valid hu) hu

theorem Shaped.set_rob (h : Shaped s) {u : Nat} {x : RobSlot} (hx : x.valid = true → instInRange s.cfg x.inst = true) :
    ∀ y ∈ s.rob.set u x, y.valid = true → instInRange s.cfg y.inst = true :=
  fun y hy => (List.mem_or_eq_of_mem_set hy).elim (h.robRange y) fun he => he ▸ hx

theorem Shaped.set_exeq (h : Shaped s) {q : Nat} {x : ExeqSlot} (hx : x.valid = true → instInRange s.cfg x.inst = true) :
    ∀ y ∈ s.exeq.set q x, y.valid = true → instInRange s.cfg y.inst = true :=
  fun y hy => (List.mem_or_eq_of_mem_set hy).elim (h.exeqRange y) fun he => he ▸ hx

/-! ## The fields of a record in range (10_state.md R24) -/

theorem instInRange_iff {x : Inst} : instInRange cfg x = true ↔
    (optBelow cfg.numArchRegs x.dest = true ∧ optBelow cfg.numArchRegs x.src1 = true ∧
      optBelow cfg.numArchRegs x.src2 = true) ∧
    (optBelow cfg.robSize x.src1Tag = true ∧ optBelow cfg.robSize x.src2Tag = true ∧
      optBelow cfg.robSize x.drTag = true) ∧ x.wait ≤ cfg.loadLatency := by
  simp only [instInRange, Bool.and_eq_true, decide_eq_true_eq, and_assoc]

theorem instInRange_wait {x : Inst} (h : instInRange cfg x = true) {w : Nat} (hw : w ≤ cfg.loadLatency) :
    instInRange cfg { x with wait := w } = true := by
  obtain ⟨hregs, htags, -⟩ := instInRange_iff.mp h
  exact instInRange_iff.mpr ⟨hregs, htags, hw⟩

theorem instInRange_fetched {q : Nat} {i : Instr} (hi : i.wellFormed cfg.numArchRegs = true) :
    instInRange cfg (fetchedInst q i) = true :=
  instInRange_of_wellFormed hi ⟨rfl, rfl, rfl⟩ ⟨rfl, rfl, .inl rfl⟩ (Nat.zero_le _)

theorem Shaped.optBelow_ratAt (h : Shaped s) (r : Nat) : optBelow s.cfg.robSize (s.ratAt r) = true := by
  by_cases hr : r < s.rat.length
  · rw [State.ratAt, List.getD_eq_getElem _ _ hr]
    exact h.ratRange _ (List.getElem_mem hr)
  · rw [State.ratAt, List.getD_eq_default _ _ (by omega)]
    rfl

theorem Shaped.instInRange_issuedInst (h : Shaped s) {x : Inst} (hx : instInRange s.cfg x = true) :
    instInRange s.cfg (issuedInst s x) = true := by
  obtain ⟨hregs, -, hwait⟩ := instInRange_iff.mp hx
  have hsource (src : Option Nat) : optBelow s.cfg.robSize (src.bind s.ratAt) = true := by
    cases src with
    | none => rfl
    | some r => exact h.optBelow_ratAt r
  exact instInRange_iff.mpr ⟨hregs, ⟨hsource _, hsource _, decide_eq_true h.tailLt⟩, hwait⟩

/-! ## Every move -/

theorem mem_clearedRat {x : Inst} {rat : List (Option Nat)} {e : Option Nat} (he : e ∈ clearedRat x rat) :
    e ∈ rat ∨ e = none := by
  unfold clearedRat at he
  split at he
  · split at he
    · exact List.mem_or_eq_of_mem_set he
    · exact .inl he
  · exact .inl he

/-- A broadcast and a ready flag leave every record in its range. -/
theorem WrittenBack.robRange {k g : Nat} (h : WrittenBack s t k g) (hs : Shaped s) :
    ∀ x ∈ t.rob, x.valid = true → instInRange s.cfg x.inst = true := by
  intro x hx hv
  obtain ⟨u, hu, rfl⟩ := List.mem_iff_getElem.mp hx
  have hslot := h.robAt u
  rw [State.robAt, List.getD_eq_getElem _ _ hu] at hslot
  obtain ⟨hvalid, -, -, -, -, hd, h1, h2, ht1, ht2, ht, hw⟩ :=
    wakeSlot_fields g (if u = g then { s.robAt u with ready := true } else s.robAt u)
  have hsame : (if u = g then { s.robAt u with ready := true } else s.robAt u).inst = (s.robAt u).inst := by split <;> rfl
  have hsameValid : (if u = g then { s.robAt u with ready := true } else s.robAt u).valid = (s.robAt u).valid := by
    split <;> rfl
  rw [hslot] at hv ⊢
  rw [hvalid, hsameValid] at hv
  have hrange := hs.robAt hv
  rw [instInRange_iff, hd, h1, h2, ht1, ht2, ht, hw, hsame, ← instInRange_iff]
  exact hrange

theorem shaped_exeqCycle (hs : Shaped s) : Shaped (exeqCycle s) :=
  { hs with
    exeqLength := (List.length_map _).trans hs.exeqLength
    exeqRange := fun x hx hv => by
      obtain ⟨y, hy, rfl⟩ := List.mem_map.mp hx
      unfold ageSlot at hv ⊢
      split
      next hyv =>
        have hrange := hs.exeqRange y hy hyv
        obtain ⟨-, -, hwait⟩ := instInRange_iff.mp hrange
        exact instInRange_wait hrange ((Nat.sub_le _ _).trans hwait)
      next hyv => rw [if_neg hyv] at hv; exact absurd hv hyv }

theorem Move.shaped (h : Move st s t) (hs : Shaped s) : Shaped t := by
  cases h with
  | retire h =>
    obtain ⟨-, -, rfl, rfl⟩ := robRemoveHead_eq_ok h
    rw [retire_eq]
    exact { hs with
      ratLength := (length_clearedRat ..).trans hs.ratLength
      ratRange := fun e he => (mem_clearedRat he).elim (hs.ratRange e) fun hnone => hnone ▸ rfl
      robLength := List.length_set.trans hs.robLength
      robRange := hs.set_rob fun hv => nomatch hv
      headLt := Nat.mod_lt _ s.cfg.one_le_robSize }
  | writeback h =>
    have hrange := h.robRange hs
    have hlength := h.robLength
    rw [h.frame]
    exact { hs with
      robLength := hlength.trans hs.robLength
      robRange := hrange
      latchEX := hs.latchEX.set fun hv => nomatch hv }
  | bypass hlane hlat hk =>
    exact { hs with
      latchSC := hs.latchSC.set fun hv => nomatch hv
      latchEX := hs.latchEX.set fun _ => hs.latchSC.getD hlane }
  | enqueue hlane hlat hq =>
    exact { hs with
      exeqLength := List.length_set.trans hs.exeqLength
      exeqRange := hs.set_exeq fun _ => instInRange_wait (hs.latchSC.getD hlane) (lat_le_loadLatency _ _)
      latchSC := hs.latchSC.set fun hv => nomatch hv }
  | age => exact shaped_exeqCycle hs
  | drain hk hx =>
    obtain ⟨q, hq, hv, rfl, rfl⟩ := exeqRemoveFinished_eq_some hx
    have hrange : instInRange s.cfg (s.exeqAt q).inst = true := by
      rw [State.exeqAt, List.getD_eq_getElem _ _ hq] at hv ⊢
      exact hs.exeqRange _ (List.getElem_mem hq) hv
    exact { hs with
      exeqLength := List.length_set.trans hs.exeqLength
      exeqRange := hs.set_exeq fun hv => nomatch hv
      latchEX := hs.latchEX.set fun _ => hrange }
  | schedule hi h =>
    obtain ⟨hv, -⟩ := h.candidate
    rw [h.frame]
    exact { hs with
      robLength := List.length_set.trans hs.robLength
      robRange := hs.set_rob fun _ => hs.robAt hv
      latchSC := hs.latchSC.set fun _ => hs.robAt hv }
  | @issue _ _ j hj h =>
    obtain ⟨hv, -⟩ := oldestLane_eq_some hj
    have hrat : ∀ e ∈ t.rat, optBelow s.cfg.robSize e = true := by
      intro e he
      obtain ⟨r, hr, rfl⟩ := List.mem_iff_getElem.mp he
      have hat := h.ratAt r
      rw [State.ratAt, List.getD_eq_getElem _ _ hr] at hat
      rw [hat]
      split
      · exact decide_eq_true hs.tailLt
      · exact hs.optBelow_ratAt r
    have hlength := h.ratLength
    rw [h.frame]
    exact { hs with
      ratLength := hlength.trans hs.ratLength
      ratRange := hrat
      robLength := List.length_set.trans hs.robLength
      robRange := hs.set_rob fun _ => hs.instInRange_issuedInst (hs.latchID.getD hv)
      tailLt := Nat.mod_lt _ s.cfg.one_le_robSize
      latchID := hs.latchID.set fun hv => nomatch hv }
  | decode hvalid hstall hj =>
    obtain ⟨hv, -⟩ := oldestLane_eq_some hj
    exact { hs with
      latchFE := hs.latchFE.set fun hv => nomatch hv
      latchID := hs.latchID.set fun _ => hs.latchFE.getD hv }
  | @fetch _ k item heos hvalid hstall hitem =>
    cases item with
    | record i => exact { hs with latchFE := hs.latchFE.set fun _ => instInRange_fetched (hitem i rfl) }
    | malformed | endOfStream => exact { hs with latchFE := hs.latchFE.set fun hv => nomatch hv }

theorem shaped_tick {item : TraceItem} (hitem : ItemOk s.cfg item) (hs : Shaped s) : Shaped (tick item s) :=
  tick_keeps (P := Shaped) (fun _ _ _ => Move.shaped) (fun _ _ hu => { hu with }) (fun _ _ hu => { hu with }) hitem hs

/-- Settles O41: every move keeps every array in shape. -/
theorem everyStepKeepsTheShape : Obligations.EveryStepKeepsTheShape := by
  intro s hshape
  refine ⟨tick (nextItem s) s, ?_, wellShaped_iff.mpr (shaped_tick (itemOk_nextItem s) (wellShaped_iff.mp hshape))⟩
  rw [step_eq_clock, clock_eq_next]
  exact ⟨hshape, rfl⟩

end

end Sys2Proof.Machine
end

section
/-! PROOFS. The operations on the RAT, the ROB and the EXEQ (spec/40_rat.md, 41_rob.md, 42_exeq.md), one after the other,
and the encoding's fixed words. -/

namespace Sys2Proof.Machine

section
variable {s t : State}

/-- Settles O6: each word decoded. -/
theorem specWordsDecode : Obligations.SpecWordsDecode := by
  refine ⟨?_, ?_, ?_, ?_, ?_, ?_, ?_, ?_, ?_, ?_, ?_, ?_, ?_⟩ <;> decide

/-! ## The RAT -/

theorem ratAt_ratSetRemap {r : Nat} (g : Nat) (hr : r < s.rat.length) (q : Nat) :
    (ratSetRemap r g s).ratAt q = if q = r then some g else s.ratAt q := by
  rw [ratSetRemap, State.ratAt_setRat]
  exact if_congr (and_iff_left hr) rfl rfl

theorem ratAt_ratReset {r : Nat} (g : Nat) (hr : r < s.rat.length) (q : Nat) :
    (ratReset r g s).ratAt q = if q = r ∧ s.ratAt r = some g then none else s.ratAt q := by
  rcases ratReset_cases r g s with ⟨hg, hreset⟩ | ⟨hg, hreset⟩ <;> rw [hreset]
  · rw [State.ratAt_setRat]
    exact if_congr (and_congr_right fun _ => iff_of_true hr hg) rfl rfl
  · rw [if_neg fun hand => hg hand.2]

/-- Settles O13: one entry read, written or cleared. -/
theorem ratOperationsTouchOneRegister : Obligations.RatOperationsTouchOneRegister := by
  intro s r g hr
  refine ⟨?_, ratAt_ratSetRemap g hr, ratAt_ratReset g hr, rfl, ?_⟩
  · rw [ratGetRemap, State.ratAt, List.getD_eq_getElem _ _ hr, List.getElem?_eq_getElem hr]
    rfl
  · rcases ratReset_cases r g s with ⟨-, hreset⟩ | ⟨-, hreset⟩ <;> rw [hreset]
    rfl

/-! ## The ROB -/

/-- Settles O14: the tail slot written and the tail moved on, or the fault alone. -/
theorem robInsertFillsTheTailSlot : Obligations.RobInsertFillsTheTailSlot := by
  intro s x hlength htail
  refine ⟨fun hspace => ⟨_, if_pos hspace, ?_, fun u hu => ?_, rfl, rfl⟩, fun hfull => ?_⟩
  · show (s.setRob s.robTail _).robAt s.robTail = _
    rw [State.robAt_setRob, if_pos ⟨rfl, hlength.symm ▸ htail⟩]
  · show (s.setRob s.robTail _).robAt u = _
    rw [State.robAt_setRob, if_neg fun hand => hu hand.1]
  · rw [robInsert, if_neg (Bool.eq_false_iff.mp hfull)]
    rfl

/-- Settles O15: each operation's test is its precondition. -/
theorem robFlagOperations : Obligations.RobFlagOperations := by
  intro s u _ _ _
  refine ⟨?_, rfl, rfl, ?_⟩
  · refine if_congr ?_ rfl rfl
    rw [candidate, Bool.and_eq_true, Bool.not_eq_true']
  · refine if_congr ?_ rfl rfl
    rw [robHeadIsReady, Bool.and_eq_true]

/-- Settles O16: a broadcast reads slot by slot. -/
theorem wakeupReachesEveryWaitingSource : Obligations.WakeupReachesEveryWaitingSource := by
  rintro s g u _ rfl
  refine ⟨rfl, fun hv => ?_, fun hv => ?_⟩ <;> rw [robWakeup_robAt, wakeSlot, hv]
  · rfl
  · simp [hv]

/-! ## The EXEQ -/

theorem freeExeqSlot_eq_some {q : Nat} (hq : q < s.exeq.length) (hfree : (s.exeqAt q).valid = false)
    (htaken : ∀ p < q, (s.exeqAt p).valid = true) : freeExeqSlot s = some q := by
  have hat {p : Nat} (hp : p < s.exeq.length) : s.exeqAt p = s.exeq[p] := by
    rw [State.exeqAt, List.getD_eq_getElem _ _ hp]
  refine List.findIdx?_eq_some_iff_getElem.mpr ⟨hq, ?_, fun p hp => ?_⟩
  · rw [← hat hq, hfree]
    rfl
  · rw [← hat (hp.trans hq), htaken p hp]
    decide

theorem freeExeqSlot_eq_none (hfull : ∀ x ∈ s.exeq, x.valid = true) : freeExeqSlot s = none := by
  refine List.findIdx?_eq_none_iff.mpr fun x hx => ?_
  rw [hfull x hx]
  rfl

theorem forall_exeq_iff {p : ExeqSlot → Prop} : (∀ x ∈ s.exeq, p x) ↔ ∀ q < s.exeq.length, p (s.exeqAt q) := by
  constructor
  · intro h q hq
    rw [State.exeqAt, List.getD_eq_getElem _ _ hq]
    exact h _ (List.getElem_mem hq)
  · intro h x hx
    obtain ⟨q, hq, rfl⟩ := List.mem_iff_getElem.mp hx
    have hp := h q hq
    rwa [State.exeqAt, List.getD_eq_getElem _ _ hq] at hp

/-- Ageing reads slot by slot: the empty slot outside the array stays what it is. -/
theorem exeqAt_exeqCycle (s : State) (q : Nat) : (exeqCycle s).exeqAt q = ageSlot (s.exeqAt q) := by
  rw [State.exeqAt, State.exeqAt, exeqCycle, List.getD_eq_getElem?_getD, List.getD_eq_getElem?_getD, List.getElem?_map]
  cases s.exeq[q]? <;> rfl

/-- Settles O17: the lowest free slot is the first one the search finds. -/
theorem exeqInsertAndCycle : Obligations.ExeqInsertAndCycle := by
  intro s x
  refine ⟨fun q hq hfree htaken => ?_, fun hfull => ?_, rfl, fun q => exeqAt_exeqCycle s q⟩
  · rw [exeqInsert, freeExeqSlot_eq_some hq hfree htaken]
    rfl
  · rw [exeqInsert, freeExeqSlot_eq_none (forall_exeq_iff.mpr hfull)]
    rfl

theorem finished_iff {x : ExeqSlot} : x.finished = true ↔ x.valid = true ∧ x.inst.wait = 0 := by
  rw [ExeqSlot.finished, Bool.and_eq_true, beq_iff_eq]

theorem exeqHasFinished_iff :
    exeqHasFinished s = true ↔ ∃ q < s.exeq.length, (s.exeqAt q).valid = true ∧ (s.exeqAt q).inst.wait = 0 := by
  simp only [exeqHasFinished, List.any_eq_true, ← finished_iff]
  constructor
  · rintro ⟨x, hx, hfin⟩
    obtain ⟨q, hq, rfl⟩ := List.mem_iff_getElem.mp hx
    exact ⟨q, hq, by rwa [State.exeqAt, List.getD_eq_getElem _ _ hq]⟩
  · rintro ⟨q, hq, hfin⟩
    rw [State.exeqAt, List.getD_eq_getElem _ _ hq] at hfin
    exact ⟨_, List.getElem_mem hq, hfin⟩

/-- The slot `oldestFinished` answers is finished, and no finished one is older (R157). -/
theorem oldestFinished_eq_some {q : Nat} (h : oldestFinished s = some q) :
    q < s.exeq.length ∧ (s.exeqAt q).finished = true ∧
      ∀ x ∈ s.exeq, x.finished = true → (s.exeqAt q).inst.seq ≤ x.inst.seq := by
  obtain ⟨a, hkey, hleast⟩ := oldest_eq_some h
  rw [List.getElem?_map, Option.map_eq_some_iff] at hkey
  obtain ⟨y, hy, hkey⟩ := hkey
  obtain ⟨hq, rfl⟩ := List.getElem?_eq_some_iff.mp hy
  rw [State.exeqAt, List.getD_eq_getElem _ _ hq]
  split at hkey
  next hfin =>
    cases hkey
    refine ⟨hq, hfin, fun x hx hxfin => hleast _ (List.mem_map.mpr ⟨x, hx, ?_⟩)⟩
    rw [if_pos hxfin]
  next => cases hkey

theorem oldestFinished_eq_none : oldestFinished s = none ↔ ∀ x ∈ s.exeq, x.finished = false := by
  rw [oldestFinished, oldest_eq_none]
  constructor
  · intro h x hx
    rw [Bool.eq_false_iff]
    intro hfin
    exact h x.inst.seq (List.mem_map.mpr ⟨x, hx, if_pos hfin⟩)
  · intro h b hb
    obtain ⟨x, hx, hkey⟩ := List.mem_map.mp hb
    rw [h x hx] at hkey
    cases hkey

/-- What is removed: the oldest finished record, and nothing but its flag is written. -/
theorem exeqRemoveFinished_spec {x : Inst} (h : exeqRemoveFinished s = some (x, t)) :
    ∃ q < s.exeq.length, (s.exeqAt q).finished = true ∧ (s.exeqAt q).inst = x ∧
      t = s.setExeq q { valid := false, inst := x } ∧ ∀ y ∈ s.exeq, y.finished = true → x.seq ≤ y.inst.seq := by
  unfold exeqRemoveFinished at h
  split at h
  next => cases h
  next q hq =>
    cases h
    obtain ⟨hlt, hfin, hleast⟩ := oldestFinished_eq_some hq
    exact ⟨q, hlt, hfin, rfl, rfl, hleast⟩

theorem exeqRemoveFinished_eq_none : exeqRemoveFinished s = none ↔ ∀ x ∈ s.exeq, x.finished = false := by
  rw [← oldestFinished_eq_none, exeqRemoveFinished]
  cases oldestFinished s <;> simp

/-- Settles O18: the oldest finished slot, by the rule of `oldest`. -/
theorem exeqRemovesOldestFinished : Obligations.ExeqRemovesOldestFinished := by
  intro s
  refine ⟨exeqHasFinished_iff, ?_, fun x t h => ?_⟩
  · rw [exeqRemoveFinished_eq_none, exeqHasFinished, List.any_eq_false]
    simp only [Bool.not_eq_true]
  · obtain ⟨q, hq, hfin, hx, rfl, hleast⟩ := exeqRemoveFinished_spec h
    obtain ⟨hv, hwait⟩ := finished_iff.mp hfin
    refine ⟨q, hq, hv, hx, hx ▸ hwait, rfl, fun p hp hpv hpw => ?_⟩
    exact forall_exeq_iff.mp hleast p hp (finished_iff.mpr ⟨hpv, hpw⟩)

end

end Sys2Proof.Machine
end

section
/-! PROOFS. Commit as a whole (spec/47_commit.md): what `m` retirements in a row have done, and where they stop. -/

namespace Sys2Proof.Machine

/-- `u` is `s` after its `m` oldest instructions have retired (R236 to R238). -/
structure RetiredBy (s : State) (m : Nat) (u : State) : Prop where
  robOk : RobOk u
  count : robCount u + m = robCount s
  ready : ∀ k < m, (slotFromHead s k).ready = true
  robHead : u.robHead = (s.robHead + m) % s.cfg.robSize
  retiredCount : u.retiredCount = s.retiredCount + m
  robAt : ∀ t, u.robAt t =
    if ∃ k < m, t = (s.robHead + k) % s.cfg.robSize then
      { s.robAt t with valid := false, exec := false, ready := false }
    else s.robAt t
  ratAt : ∀ r, u.ratAt r =
    if ∃ k < m, s.ratAt r = some ((s.robHead + k) % s.cfg.robSize) then none else s.ratAt r
  halted : u.halted = true ↔ s.halted = true ∨ (s.eosSeen = true ∧ 0 < m ∧ s.haltSeq ≤ s.retiredCount + m)
  frame : Stage.commit.Frame s u

section
variable {s t u : State} {m : Nat}

theorem RobOk.retiredBy_zero (hs : RobOk s) : RetiredBy s 0 s where
  robOk := hs
  count := rfl
  ready k hk := absurd hk (Nat.not_lt_zero k)
  robHead := (Nat.mod_eq_of_lt hs.headLt).symm
  retiredCount := rfl
  robAt t := (if_neg fun ⟨k, hk, _⟩ => Nat.not_lt_zero k hk).symm
  ratAt r := (if_neg fun ⟨k, hk, _⟩ => Nat.not_lt_zero k hk).symm
  halted := by simp
  frame := .refl _ s

theorem RobOk.head_valid_iff (hs : RobOk s) : (s.robAt s.robHead).valid = true ↔ 0 < robCount s := by
  have hhead := hs.valid_fromHead s.cfg.one_le_robSize
  rwa [slotFromHead, Nat.add_zero, Nat.mod_eq_of_lt hs.headLt] at hhead

theorem exists_lt_succ (p : Nat → Prop) : (∃ k < m + 1, p k) ↔ p m ∨ ∃ k < m, p k := by
  constructor
  · rintro ⟨k, hk, hp⟩
    rcases Nat.lt_succ_iff_lt_or_eq.mp hk with hk | rfl
    · exact .inr ⟨k, hk, hp⟩
    · exact .inl hp
  · rintro (hp | ⟨k, hk, hp⟩)
    · exact ⟨m, Nat.lt_succ_self m, hp⟩
    · exact ⟨k, Nat.lt_succ_of_lt hk, hp⟩

section
variable (hs : RobOk s) (h : RetiredBy s m u)
include hs h

/-- The head after `m` retirements is the slot `m` places on, untouched while the window lasts. -/
theorem RetiredBy.head_eq (hm : m < robCount s) : u.robAt u.robHead = slotFromHead s m := by
  have hle := hs.robCount_le
  rw [h.robHead, h.robAt, if_neg]
  · rfl
  · rintro ⟨k, hk, he⟩
    exact absurd (fromHead_injective (by omega) (by omega) he) (by omega)

theorem RetiredBy.head_ready_iff : robHeadIsReady u = true ↔ m < robCount s ∧ (slotFromHead s m).ready = true := by
  rw [robHeadIsReady, Bool.and_eq_true, h.robOk.head_valid_iff]
  have hcount := h.count
  constructor
  · rintro ⟨hpos, hready⟩
    have hm : m < robCount s := by omega
    exact ⟨hm, h.head_eq hs hm ▸ hready⟩
  · rintro ⟨hm, hready⟩
    exact ⟨by omega, (h.head_eq hs hm).symm ▸ hready⟩

/-- The next instruction retires: it is the one `m` places after the old head, and its number is the next one. -/
theorem RetiredBy.succ (hready : robHeadIsReady u = true) : RetiredBy s (m + 1) (retireHead u) := by
  have hr : Retired u (retireHead u) := h.robOk.retired (robRemoveHead_of_ready hready)
  obtain ⟨hm, hslot⟩ := (h.head_ready_iff hs).mp hready
  have hcfg : u.cfg = s.cfg := h.frame.cfg
  have hseq : (u.robAt u.robHead).inst.seq = s.retiredCount + (m + 1) := by
    rw [h.head_eq hs hm, hs.seq_fromHead hm]
    omega
  refine ⟨hr.robOk h.robOk, ?_, fun k hk => ?_, ?_, ?_, fun g => ?_, fun r => ?_, ?_,
    h.frame.trans (move_retireHead hready).frame⟩
  · have hcount := h.count
    have hone := hr.robCount
    omega
  · rcases Nat.lt_succ_iff_lt_or_eq.mp hk with hk | rfl
    · exact h.ready k hk
    · exact hslot
  · rw [hr.robHead, h.robHead, hcfg, Nat.mod_add_mod, Nat.add_assoc]
  · rw [hr.retiredCount, h.retiredCount, Nat.add_assoc]
  · rw [hr.robAt, h.robAt, h.robHead]
    by_cases hg : g = (s.robHead + m) % s.cfg.robSize
    · rw [if_pos hg, if_pos ((exists_lt_succ fun k => g = (s.robHead + k) % s.cfg.robSize).mpr (.inl hg))]
      split <;> rfl
    · rw [if_neg hg]
      exact if_congr ((exists_lt_succ fun k => g = (s.robHead + k) % s.cfg.robSize).trans (or_iff_right hg)).symm rfl rfl
  · rw [hr.ratAt, h.ratAt, h.robHead]
    by_cases hg : s.ratAt r = some ((s.robHead + m) % s.cfg.robSize)
    · rw [if_pos ((exists_lt_succ fun k => s.ratAt r = some ((s.robHead + k) % s.cfg.robSize)).mpr (.inl hg))]
      split <;> rfl
    · rw [if_congr ((exists_lt_succ fun k => s.ratAt r = some ((s.robHead + k) % s.cfg.robSize)).trans
        (or_iff_right hg)) rfl rfl]
      split
      · exact ite_self _
      · rfl
  · have hhalted := h.halted
    have heos : u.eosSeen = s.eosSeen ∧ u.haltSeq = s.haltSeq := by
      obtain ⟨h1, -, -, h2⟩ := h.frame.sameStream (by simp)
      exact ⟨h1, h2⟩
    rw [retireHead, retire_eq]
    simp only [Bool.or_eq_true, Bool.and_eq_true, decide_eq_true_eq, State.setRob_halted, State.setRob_eosSeen,
      State.setRob_haltSeq, hhalted, heos.1, heos.2, hseq]
    constructor
    · rintro ((hold | ⟨he, -, hle⟩) | ⟨he, hle⟩)
      · exact .inl hold
      · exact .inr ⟨he, by omega, by omega⟩
      · exact .inr ⟨he, by omega, hle⟩
    · rintro (hold | ⟨he, -, hle⟩)
      · exact .inl (.inl hold)
      · exact .inr ⟨he, hle⟩

end

/-- By induction on the commits left: Commit stops after all of them, or where the head is not ready. -/
theorem RetiredBy.commitUpTo (hs : RobOk s) : ∀ (n m : Nat) {u : State}, RetiredBy s m u →
    ∃ t p, commitUpTo n u = .ok () t ∧ RetiredBy s p t ∧ m ≤ p ∧ p ≤ m + n ∧
      (p = m + n ∨ robHeadIsReady t = false)
  | 0, m, u, h => ⟨u, m, rfl, h, Nat.le_refl _, Nat.le_refl _, .inl rfl⟩
  | n + 1, m, u, h => by
    by_cases hready : robHeadIsReady u = true
    · obtain ⟨t, p, hrun, hp, hlow, hhigh, hstop⟩ := RetiredBy.commitUpTo hs n (m + 1) (h.succ hs hready)
      rw [commitUpTo_succ_of_ready n hready]
      exact ⟨t, p, hrun, hp, by omega, by omega, hstop.imp_left fun he => by omega⟩
    · rw [Bool.not_eq_true] at hready
      exact ⟨u, m, commitUpTo_idle hready _, h, Nat.le_refl _, by omega, .inr hready⟩

theorem RobOk.commit (hs : RobOk s) : ∃ t p, commit s = .ok () t ∧ RetiredBy s p t ∧ p ≤ s.cfg.pipeWidth ∧
    (p = s.cfg.pipeWidth ∨ robHeadIsReady t = false) := by
  obtain ⟨t, p, hrun, hp, -, hhigh, hstop⟩ := hs.retiredBy_zero.commitUpTo hs s.cfg.pipeWidth 0
  rw [Nat.zero_add] at hhigh hstop
  exact ⟨t, p, hrun, hp, hhigh, hstop⟩

/-- Settles O19: the retirements in a row, read at the last one. -/
theorem commitRetiresTheReadyHead : Obligations.CommitRetiresTheReadyHead := by
  intro s hinv
  have hs := hinv.robOk
  obtain ⟨t, m, hrun, h, hm, hstop⟩ := hs.commit
  have hcount := h.count
  refine ⟨t, m, hrun, hm, by omega, h.ready, ?_, h.robHead, h.retiredCount, fun g _ => h.robAt g,
    fun r _ => h.ratAt r, h.halted, h.frame⟩
  refine hstop.imp_right fun hnot => ?_
  by_contra hmore
  rw [not_or, Bool.not_eq_false] at hmore
  exact absurd ((h.head_ready_iff hs).mpr ⟨by omega, hmore.2⟩) (by rw [hnot]; decide)

end

end Sys2Proof.Machine
end

section
/-! PROOFS. Writeback as a whole (46_execute_writeback.md R226): what its lanes have done to a slot depends on which tags
the lanes hold, and not on their order. -/

namespace Sys2Proof.Machine

/-- A list of lanes holds an instruction with tag `g`. -/
def holdsTag (lanes : List Lane) (g : Option Nat) : Bool := lanes.any (fun l => l.valid && l.inst.drTag == g)

/-- What writing back the lanes does to slot `u`: its ready flag and the flags of its sources (R226). -/
def writtenSlot (lanes : List Lane) (u : Nat) (x : RobSlot) : RobSlot :=
  if x.valid = true then
    { x with
      ready := x.ready || holdsTag lanes (some u)
      inst := { x.inst with
        src1Ready := x.inst.src1Ready || holdsTag lanes x.inst.src1Tag
        src2Ready := x.inst.src2Ready || holdsTag lanes x.inst.src2Tag } }
  else x

/-- A lane names a slot in use. -/
def NamesSlot (s : State) (l : Lane) : Prop := ∃ g, l.inst.drTag = some g ∧ (s.robAt g).valid = true

/-- What Writeback has done to `s` when `n` lanes are done. -/
structure WrittenUpTo (s : State) (n : Nat) (t : State) : Prop where
  frame : Stage.writeback.Frame s t
  robLength : t.rob.length = s.rob.length
  robAt : ∀ u, t.robAt u = writtenSlot (s.latchEX.take n) u (s.robAt u)
  length : t.latchEX.length = s.latchEX.length
  exAt : ∀ j, t.exAt j = if j < n then { s.exAt j with valid := false } else s.exAt j
  named : ∀ j < n, (s.exAt j).valid = true → NamesSlot s (s.exAt j)

section
variable {s t u : State} {lanes : List Lane} {l : Lane} {g : Nat}

theorem holdsTag_of_perm {lanes' : List Lane} (h : lanes.Perm lanes') (o : Option Nat) :
    holdsTag lanes o = holdsTag lanes' o := h.any_eq

theorem writtenSlot_nil (u : Nat) (x : RobSlot) : writtenSlot [] u x = x := by
  rw [writtenSlot]
  split <;> simp [holdsTag]

theorem holdsTag_concat (o : Option Nat) :
    holdsTag (lanes ++ [l]) o = (holdsTag lanes o || (l.valid && l.inst.drTag == o)) := by
  simp [holdsTag]

theorem writtenSlot_concat_invalid (hl : l.valid = false) (u : Nat) (x : RobSlot) :
    writtenSlot (lanes ++ [l]) u x = writtenSlot lanes u x := by
  simp only [writtenSlot, holdsTag_concat, hl, Bool.false_and, Bool.or_false]

theorem writtenSlot_valid (lanes : List Lane) (u : Nat) (x : RobSlot) : (writtenSlot lanes u x).valid = x.valid := by
  unfold writtenSlot
  split <;> rfl

theorem writtenSlot_concat_valid (hl : l.valid = true) (hg : l.inst.drTag = some g) (u : Nat) {x : RobSlot}
    (hx : u = g → x.valid = true) : writtenSlot (lanes ++ [l]) u x =
      wakeSlot g (if u = g then { writtenSlot lanes u x with ready := true } else writtenSlot lanes u x) := by
  cases hv : x.valid with
  | false =>
    have hne : u ≠ g := fun he => Bool.false_ne_true (hv.symm.trans (hx he))
    simp [writtenSlot, wakeSlot, hv, hne]
  | true =>
    have htag (o : Option Nat) : (some g == o) = decide (o = some g) := by
      rw [Bool.eq_iff_iff, beq_iff_eq, decide_eq_true_iff, eq_comm]
    by_cases hu : u = g
    · subst hu
      simp [writtenSlot, wakeSlot, holdsTag_concat, hv, hl, hg, htag, Bool.or_assoc]
    · simp [writtenSlot, wakeSlot, holdsTag_concat, hv, hl, hg, htag, Bool.or_assoc, hu]

theorem take_succ_latchEX {n : Nat} (hn : n < s.latchEX.length) :
    s.latchEX.take (n + 1) = s.latchEX.take n ++ [s.exAt n] := by
  rw [State.exAt, List.getD_eq_getElem _ _ hn, List.take_append_getElem]

theorem WrittenUpTo.zero (s : State) : WrittenUpTo s 0 s where
  frame := .refl _ s
  robLength := rfl
  robAt u := (writtenSlot_nil u _).symm
  length := rfl
  exAt _ := rfl
  named _ hj := absurd hj (Nat.not_lt_zero _)

theorem WrittenUpTo.succ {n : Nat} (h : WrittenUpTo s n t) (hn : n < s.latchEX.length)
    (hlane : writebackLane n t = .ok () u) : WrittenUpTo s (n + 1) u := by
  have hnew : t.exAt n = s.exAt n := by rw [h.exAt, if_neg (Nat.lt_irrefl n)]
  rcases writebackLane_cases hlane with ⟨hfree, rfl⟩ | ⟨g, hg⟩
  · rw [hnew] at hfree
    refine { h with robAt := fun v => ?_, exAt := fun j => ?_, named := fun j hj hv => ?_ }
    · rw [h.robAt, take_succ_latchEX hn, writtenSlot_concat_invalid hfree]
    · rw [h.exAt]
      by_cases hj : j = n
      · subst hj
        rw [if_neg (Nat.lt_irrefl j), if_pos (Nat.lt_succ_self j), ← hfree]
      · exact if_congr (by omega) rfl rfl
    · rcases Nat.lt_succ_iff_lt_or_eq.mp hj with hj | rfl
      · exact h.named j hj hv
      · exact absurd (hfree.symm.trans hv) (by decide)
  · have hv := hg.laneValid
    have htag := hg.tag
    rw [hnew] at hv htag
    have hslot : (s.robAt g).valid = true := by
      rcases writebackLane_eq_ok hlane with ⟨hfree, -⟩ | ⟨g', -, htag', hslot, -⟩
      · exact absurd (hfree.symm.trans hg.laneValid) (by decide)
      · obtain rfl : g = g' := Option.some.inj (hg.tag.symm.trans htag')
        rwa [h.robAt, writtenSlot_valid] at hslot
    have hEX : u.latchEX = t.latchEX.set n { t.exAt n with valid := false } := by rw [hg.frame]
    refine ⟨h.frame.trans (Move.writeback hg).frame, hg.robLength.trans h.robLength, fun v => ?_, ?_, fun j => ?_,
      fun j hj hjv => ?_⟩
    · rw [hg.robAt, h.robAt, take_succ_latchEX hn, writtenSlot_concat_valid hv htag v (fun he => he ▸ hslot)]
    · rw [hEX, List.length_set, h.length]
    · rw [State.exAt, hEX, getD_set, h.length, hnew, ← State.exAt, h.exAt]
      by_cases hj : j = n
      · subst hj
        rw [if_pos ⟨rfl, hn⟩, if_pos (Nat.lt_succ_self j)]
      · rw [if_neg fun hand => hj hand.1]
        exact if_congr (by omega) rfl rfl
    · rcases Nat.lt_succ_iff_lt_or_eq.mp hj with hj | rfl
      · exact h.named j hj hjv
      · exact ⟨g, htag, hslot⟩

theorem writtenUpTo_of_writeback (hwidth : s.latchEX.length = s.cfg.wbWidth) (h : writeback s = .ok () t) :
    WrittenUpTo s s.cfg.wbWidth t :=
  forLanes_range_keeps (P := WrittenUpTo s) (fun _ _ _ hn hu hv => hu.succ (hwidth.symm ▸ hn) hv) (.zero s) h

/-- A lane that names a slot in use does not raise. -/
theorem writebackLane_ok {k : Nat} (h : (s.exAt k).valid = true → NamesSlot s (s.exAt k)) :
    ∃ t, writebackLane k s = .ok () t := by
  unfold writebackLane
  split
  next hv =>
    obtain ⟨g, hg, hslot⟩ := h hv
    rw [hg]
    simp only [robMarkReady, if_pos hslot, Res.bind_ok]
    exact ⟨_, rfl⟩
  next => exact ⟨s, rfl⟩

/-- A loop over lanes whose every step goes on, goes on. -/
theorem forLanes_range_ok {P : Nat → State → Prop} {f : Nat → State → Res Unit} {n : Nat}
    (hf : ∀ k u, k < n → P k u → ∃ v, f k u = .ok () v ∧ P (k + 1) v) (hs : P 0 s) :
    ∃ t, forLanes f (List.range n) s = .ok () t ∧ P n t := by
  have hloop (m k : Nat) (hk : k + m = n) : ∀ u, P k u → ∃ t, forLanes f (List.range' k m) u = .ok () t ∧ P n t := by
    induction m generalizing k with
    | zero => exact fun u hu => ⟨u, rfl, hk ▸ hu⟩
    | succ m ih =>
      intro u hu
      obtain ⟨v, hv, hP⟩ := hf k u (by omega) hu
      obtain ⟨t, ht, hPt⟩ := ih (k + 1) (by omega) v hP
      exact ⟨t, by rw [List.range'_succ, forLanes, hv, Res.bind_ok, ht], hPt⟩
  rw [List.range_eq_range']
  exact hloop n 0 (Nat.zero_add n) s hs

theorem writeback_ok (hwidth : s.latchEX.length = s.cfg.wbWidth)
    (hnamed : ∀ l ∈ s.latchEX, l.valid = true → NamesSlot s l) :
    ∃ t, writeback s = .ok () t ∧ WrittenUpTo s s.cfg.wbWidth t := by
  refine forLanes_range_ok (P := WrittenUpTo s) (fun k u hk hu => ?_) (.zero s)
  have hlt : k < s.latchEX.length := hwidth.symm ▸ hk
  have hnew : u.exAt k = s.exAt k := by rw [hu.exAt, if_neg (Nat.lt_irrefl k)]
  obtain ⟨v, hv⟩ := writebackLane_ok (s := u) (k := k) fun hkv => by
    rw [hnew] at hkv ⊢
    obtain ⟨g, hg, hslot⟩ := hnamed _ (lane_mem_of_valid hkv) hkv
    exact ⟨g, hg, by rw [hu.robAt, writtenSlot_valid, hslot]⟩
  exact ⟨v, hv, hu.succ hlt hv⟩

/-- When all lanes are done each slot has been written by all of them, and the latch is empty. -/
theorem WrittenUpTo.done (hwidth : s.latchEX.length = s.cfg.wbWidth) (h : WrittenUpTo s s.cfg.wbWidth t) :
    (∀ u, t.robAt u = writtenSlot s.latchEX u (s.robAt u)) ∧
      t.latchEX = s.latchEX.map (fun l => { l with valid := false }) := by
  refine ⟨fun u => by rw [h.robAt, ← hwidth, List.take_length], ?_⟩
  refine List.ext_getElem (by rw [h.length, List.length_map]) fun j hj hj' => ?_
  rw [List.length_map] at hj'
  have hlane := h.exAt j
  rw [if_pos (hwidth ▸ hj'), State.exAt, State.exAt, List.getD_eq_getElem _ _ hj, List.getD_eq_getElem _ _ hj'] at hlane
  rw [hlane, List.getElem_map]

/-- Settles O20: what the lanes have done, when all of them are done. -/
theorem writebackMarksAndWakes : Obligations.WritebackMarksAndWakes := by
  intro s hwidth hnamed
  obtain ⟨t, hrun, h⟩ := writeback_ok hwidth hnamed
  obtain ⟨hrob, hEX⟩ := h.done hwidth
  exact ⟨t, hrun, hEX, hrob, h.frame⟩

/-- Settles O21: the lanes of either order hold the same tags. -/
theorem writebackLaneOrderIsImmaterial : Obligations.WritebackLaneOrderIsImmaterial := by
  intro s t ex hwidth hperm hrun
  have h := writtenUpTo_of_writeback hwidth hrun
  obtain ⟨hrob, -⟩ := h.done hwidth
  have hwidth' : ex.length = s.cfg.wbWidth := hperm.length_eq.symm.trans hwidth
  have hnamed : ∀ l ∈ s.latchEX, l.valid = true → NamesSlot s l :=
    forall_lane_iff.mpr fun j hj => h.named j (hwidth ▸ hj)
  obtain ⟨t', hrun', h'⟩ := writeback_ok (s := { s with latchEX := ex }) hwidth'
    fun l hl => hnamed l (hperm.mem_iff.mpr hl)
  obtain ⟨hrob', -⟩ := h'.done hwidth'
  refine ⟨t', hrun', List.ext_getElem (h'.robLength.trans h.robLength.symm) fun u hu hu' => ?_⟩
  have hslot : t'.robAt u = t.robAt u := by
    rw [hrob', hrob]
    simp only [writtenSlot, holdsTag_of_perm hperm]
    rfl
  rwa [State.robAt, State.robAt, List.getD_eq_getElem _ _ hu, List.getD_eq_getElem _ _ hu'] at hslot

end

end Sys2Proof.Machine
end

section
/-! PROOFS. Execute as a whole (46_execute_writeback.md R220), by the records in the latches and the EXEQ: the bypass takes
the single-cycle records, the enqueue the others, ageing takes one off every countdown, and the drain takes the oldest
finished records until none is left or the execute latch is full. -/

namespace Sys2Proof.Machine

/-- A record of a single-cycle class. -/
def Inst.single (cfg : Config) (c : Inst) : Bool := lat cfg c.op == 1

/-- The record as it enters the EXEQ (R152). -/
def Inst.entering (cfg : Config) (c : Inst) : Inst := { c with wait := lat cfg c.op }

/-- The record after one cycle in the EXEQ (R154). -/
def Inst.aged (c : Inst) : Inst := { c with wait := c.wait - 1 }

/-- The single-cycle records of a latch. -/
def singles (cfg : Config) (latch : List Lane) : List Inst := (laneRecords latch).filter (Inst.single cfg)

/-- The multi-cycle records of a latch. -/
def multis (cfg : Config) (latch : List Lane) : List Inst := (laneRecords latch).filter fun c => !c.single cfg

/-- A lane that holds a single-cycle record. -/
def Lane.single (cfg : Config) (l : Lane) : Bool := l.valid && l.inst.single cfg

section
variable {cfg : Config} {s t u : State} {latch : List Lane} {l : Lane} {n i : Nat}

/-! ## Records by lane -/

theorem not_single_iff {c : Inst} : (!c.single cfg) = true ↔ 1 < lat cfg c.op := by
  have hpos := lat_pos cfg c.op
  rw [Inst.single, Bool.not_eq_true', beq_eq_false_iff_ne]
  omega

theorem single_iff {c : Inst} : c.single cfg = true ↔ lat cfg c.op = 1 := beq_iff_eq

theorem laneRecords_append (a b : List Lane) : laneRecords (a ++ b) = laneRecords a ++ laneRecords b := by
  simp [laneRecords]

theorem laneRecords_singleton_valid (hl : l.valid = true) : laneRecords [l] = [l.inst] := by simp [laneRecords, hl]

theorem laneRecords_singleton_invalid (hl : l.valid = false) : laneRecords [l] = [] := by simp [laneRecords, hl]

theorem take_succ_getD (hn : n < latch.length) : latch.take (n + 1) = latch.take n ++ [latch.getD n .empty] := by
  rw [List.getD_eq_getElem _ _ hn, List.take_append_getElem]

theorem singles_concat (a : List Lane) (hl : l.single cfg = true) :
    singles cfg (a ++ [l]) = singles cfg a ++ [l.inst] := by
  rw [Lane.single, Bool.and_eq_true] at hl
  rw [singles, laneRecords_append, laneRecords_singleton_valid hl.1, List.filter_append, List.filter_cons_of_pos hl.2]
  rfl

theorem singles_concat_of_not (a : List Lane) (hl : l.single cfg = false) : singles cfg (a ++ [l]) = singles cfg a := by
  rw [singles, singles, laneRecords_append, List.filter_append]
  cases hv : l.valid with
  | false => rw [laneRecords_singleton_invalid hv, List.filter_nil, List.append_nil]
  | true =>
    rw [Lane.single, hv, Bool.true_and] at hl
    rw [laneRecords_singleton_valid hv, List.filter_cons_of_neg (by rw [hl]; decide), List.filter_nil, List.append_nil]

theorem multis_concat (a : List Lane) (hv : l.valid = true) (hl : 1 < lat cfg l.inst.op) :
    multis cfg (a ++ [l]) = multis cfg a ++ [l.inst] := by
  rw [multis, laneRecords_append, laneRecords_singleton_valid hv, List.filter_append,
    List.filter_cons_of_pos (by exact not_single_iff.mpr hl)]
  rfl

theorem multis_concat_of_invalid (a : List Lane) (hv : l.valid = false) : multis cfg (a ++ [l]) = multis cfg a := by
  rw [multis, laneRecords_append, laneRecords_singleton_invalid hv, List.append_nil]
  rfl

theorem exeqDemand_eq (s : State) : exeqDemand s = (multis s.cfg s.latchSC).length := by
  rw [exeqDemand, multis, laneRecords, ← List.countP_eq_length_filter, List.countP_map, List.countP_filter]
  refine List.countP_congr fun l _ => ?_
  rw [Function.comp, Bool.and_eq_true, Bool.and_eq_true, decide_eq_true_iff, not_single_iff, and_comm]

theorem length_exeqRecords (s : State) : (exeqRecords s).length + exeqFree s = s.exeq.length := by
  rw [exeqRecords, List.length_map, ← List.countP_eq_length_filter, exeqFree,
    List.length_eq_countP_add_countP (fun x : ExeqSlot => x.valid)]
  congr 1
  exact List.countP_congr fun x _ => by simp

theorem scAt_emptySC (i j : Nat) (s : State) :
    (emptySC i s).scAt j = if j = i then { s.scAt j with valid := false } else s.scAt j := by
  by_cases hj : j = i
  · subst hj
    rw [if_pos rfl, emptySC, State.scAt_setSC]
    split
    next => rfl
    next hout =>
      rw [State.scAt, List.getD_eq_default _ _ (by omega)]
      rfl
  · rw [if_neg hj, scAt_emptySC_of_ne hj]

/-! ## The bypass -/

/-- What the bypass has done to `s` when `n` lanes are done. -/
structure BypassedUpTo (s : State) (n : Nat) (t : State) : Prop where
  frame : t = { s with latchSC := t.latchSC, latchEX := t.latchEX }
  lengthSC : t.latchSC.length = s.latchSC.length
  lengthEX : t.latchEX.length = s.latchEX.length
  scAt : ∀ j, t.scAt j =
    if j < n ∧ (s.scAt j).single s.cfg = true then { s.scAt j with valid := false } else s.scAt j
  records : (laneRecords t.latchEX).Perm (singles s.cfg (s.latchSC.take n))

theorem bypassLane_of_single {k : Nat} (hlane : (s.scAt i).single s.cfg = true) (hk : freeExLane s = some k) :
    bypassLane i s = .ok () (emptySC i (putEX k (s.scAt i).inst s)) := by
  rw [bypassLane, if_pos (by exact hlane), hk]

theorem bypassLane_of_not_single (hlane : (s.scAt i).single s.cfg = false) : bypassLane i s = .ok () s :=
  if_neg (by rw [Lane.single, Inst.single] at hlane; rw [hlane]; decide)

theorem freeExLane_spec {k : Nat} (hk : freeExLane s = some k) :
    k < s.latchEX.length ∧ (s.exAt k).valid = false := by
  obtain ⟨hlt, hfree, -⟩ := List.findIdx?_eq_some_iff_getElem.mp hk
  refine ⟨hlt, ?_⟩
  rw [State.exAt, List.getD_eq_getElem _ _ hlt]
  simpa using hfree

theorem laneRecords_putEX_perm {k : Nat} (hk : freeExLane s = some k) (x : Inst) :
    (laneRecords (putEX k x s).latchEX).Perm (x :: laneRecords s.latchEX) := by
  obtain ⟨hlt, hfree⟩ := freeExLane_spec hk
  exact laneRecords_set_valid_perm hlt hfree rfl

theorem BypassedUpTo.zero (hEX : ∀ l ∈ s.latchEX, l.valid = false) : BypassedUpTo s 0 s where
  frame := rfl
  lengthSC := rfl
  lengthEX := rfl
  scAt _ := (if_neg fun hand => Nat.not_lt_zero _ hand.1).symm
  records := by rw [laneRecords_of_all_invalid hEX]; rfl

theorem BypassedUpTo.cfg_eq (h : BypassedUpTo s n t) : t.cfg = s.cfg := by rw [h.frame]

/-- A lane takes at most one lane of the execute latch, so the latch never fills (PIPE_WIDTH ≤ WB_WIDTH). -/
theorem BypassedUpTo.succ (hwidths : WidthsOk s) (h : BypassedUpTo s n t) (hn : n < s.cfg.pipeWidth) :
    ∃ u, bypassLane n t = .ok () u ∧ BypassedUpTo s (n + 1) u := by
  have hnSC : n < s.latchSC.length := hwidths.latchSC.symm ▸ hn
  have hlane : t.scAt n = s.scAt n := by rw [h.scAt, if_neg fun hand => Nat.lt_irrefl n hand.1]
  have htake : s.latchSC.take (n + 1) = s.latchSC.take n ++ [s.scAt n] := take_succ_getD hnSC
  cases hsingle : (s.scAt n).single s.cfg with
  | false =>
    refine ⟨t, bypassLane_of_not_single (by rw [hlane, h.cfg_eq, hsingle]), { h with scAt := fun j => ?_, records := ?_ }⟩
    · rw [h.scAt]
      refine if_congr (and_congr_left fun hj => ?_) rfl rfl
      have hne : j ≠ n := by rintro rfl; exact Bool.false_ne_true (hsingle.symm.trans hj)
      omega
    · rw [htake, singles_concat_of_not _ hsingle]
      exact h.records
  | true =>
    have hcount : laneCount t.latchEX < t.latchEX.length := by
      rw [laneCount_eq_length, h.records.length_eq, h.lengthEX, hwidths.latchEX]
      calc (singles s.cfg (s.latchSC.take n)).length
          ≤ (laneRecords (s.latchSC.take n)).length := List.length_filter_le ..
        _ ≤ (s.latchSC.take n).length := by rw [← laneCount_eq_length]; exact List.countP_le_length
        _ ≤ n := List.length_take_le ..
        _ < s.cfg.pipeWidth := hn
        _ ≤ s.cfg.wbWidth := s.cfg.pipeWidth_le_wbWidth
    obtain ⟨k, hk⟩ := freeExLane_isSome hcount
    refine ⟨_, bypassLane_of_single (by rw [hlane, h.cfg_eq, hsingle]) hk, ?_, ?_, ?_, fun j => ?_, ?_⟩
    · rw [h.frame]; rfl
    · exact List.length_set.trans h.lengthSC
    · exact List.length_set.trans h.lengthEX
    · have hput : (putEX k (t.scAt n).inst t).scAt j = t.scAt j := rfl
      rw [scAt_emptySC, hput]
      by_cases hj : j = n
      · subst hj
        rw [if_pos rfl, hlane, if_pos ⟨Nat.lt_succ_self j, hsingle⟩]
      · rw [if_neg hj, h.scAt]
        exact if_congr (and_congr_left fun _ => by omega) rfl rfl
    · rw [htake, singles_concat _ hsingle, ← hlane]
      exact (laneRecords_putEX_perm hk _).trans ((List.perm_append_singleton ..).symm.trans (h.records.append_right _))

theorem bypass_ok (hwidths : WidthsOk s) (hEX : ∀ l ∈ s.latchEX, l.valid = false) :
    ∃ t, forLanes bypassLane (List.range s.cfg.pipeWidth) s = .ok () t ∧ BypassedUpTo s s.cfg.pipeWidth t :=
  forLanes_range_ok (P := BypassedUpTo s) (fun _ _ hk hu => hu.succ hwidths hk) (.zero hEX)

theorem BypassedUpTo.latchSC_eq (hwidths : WidthsOk s) (h : BypassedUpTo s s.cfg.pipeWidth t) :
    t.latchSC = s.latchSC.map fun l => if l.single s.cfg = true then { l with valid := false } else l := by
  refine List.ext_getElem (by rw [h.lengthSC, List.length_map]) fun j hj hj' => ?_
  rw [List.length_map] at hj'
  have hlane := h.scAt j
  rw [State.scAt, State.scAt, List.getD_eq_getElem _ _ hj, List.getD_eq_getElem _ _ hj'] at hlane
  rw [hlane, List.getElem_map]
  exact if_congr (and_iff_right (hwidths.latchSC ▸ hj')) rfl rfl

theorem multis_bypassed (latch : List Lane) :
    multis cfg (latch.map fun l => if l.single cfg = true then { l with valid := false } else l) = multis cfg latch := by
  induction latch with
  | nil => rfl
  | cons l ls ih =>
    have hcons (l : Lane) (ls : List Lane) : multis cfg (l :: ls) = multis cfg [l] ++ multis cfg ls := by
      rw [multis, multis, multis, ← List.filter_append, ← laneRecords_append]
      rfl
    rw [List.map_cons, hcons, ih, hcons l ls]
    refine congrArg (· ++ _) ?_
    split
    next hsingle =>
      rw [Lane.single, Bool.and_eq_true] at hsingle
      rw [multis, laneRecords_singleton_invalid rfl, multis, laneRecords_singleton_valid hsingle.1,
        List.filter_cons_of_neg (by rw [hsingle.2]; decide)]
    next => rfl

/-! ## The enqueue -/

/-- What the enqueue has done to `s` when `n` lanes are done. -/
structure EnqueuedUpTo (s : State) (n : Nat) (t : State) : Prop where
  frame : t = { s with latchSC := t.latchSC, exeq := t.exeq }
  lengthSC : t.latchSC.length = s.latchSC.length
  length : t.exeq.length = s.exeq.length
  scAt : ∀ j, t.scAt j = if j < n then { s.scAt j with valid := false } else s.scAt j
  kept : ∀ q, (s.exeqAt q).valid = true → t.exeqAt q = s.exeqAt q
  records : (exeqRecords t).Perm (exeqRecords s ++ (multis s.cfg (s.latchSC.take n)).map (Inst.entering s.cfg))

theorem EnqueuedUpTo.zero (s : State) : EnqueuedUpTo s 0 s where
  frame := rfl
  lengthSC := rfl
  length := rfl
  scAt _ := rfl
  kept _ _ := rfl
  records := by rw [List.take_zero]; exact (List.append_nil _).symm ▸ .refl _

theorem EnqueuedUpTo.cfg_eq (h : EnqueuedUpTo s n t) : t.cfg = s.cfg := by rw [h.frame]

theorem enqueueLane_of_multi {q : Nat} (hv : (s.scAt i).valid = true) (hlat : 1 < lat s.cfg (s.scAt i).inst.op)
    (hq : freeExeqSlot s = some q) : enqueueLane i s =
      .ok () (emptySC i (s.setExeq q { valid := true, inst := (s.scAt i).inst.entering s.cfg })) := by
  rw [enqueueLane, if_pos (by rw [hv, decide_eq_true hlat]; rfl), exeqInsert, hq]
  rfl

theorem enqueueLane_of_full (hv : (s.scAt i).valid = true) (hlat : 1 < lat s.cfg (s.scAt i).inst.op)
    (hq : freeExeqSlot s = none) : enqueueLane i s = .raised (s.setFault .exeqOverflow) := by
  rw [enqueueLane, if_pos (by rw [hv, decide_eq_true hlat]; rfl), exeqInsert, hq]
  rfl

theorem freeExeqSlot_spec {q : Nat} (hq : freeExeqSlot s = some q) :
    q < s.exeq.length ∧ (s.exeqAt q).valid = false := by
  obtain ⟨hlt, hfree, -⟩ := List.findIdx?_eq_some_iff_getElem.mp hq
  refine ⟨hlt, ?_⟩
  rw [State.exeqAt, List.getD_eq_getElem _ _ hlt]
  simpa using hfree

/-- One lane, in a latch without single-cycle records: it is emptied, or it finds the EXEQ full. -/
theorem EnqueuedUpTo.succ (h : EnqueuedUpTo s n t) (hn : n < s.latchSC.length)
    (hmulti : (s.scAt n).valid = true → 1 < lat s.cfg (s.scAt n).inst.op) :
    (∃ u, enqueueLane n t = .ok () u ∧ EnqueuedUpTo s (n + 1) u) ∨
      (enqueueLane n t = .raised (t.setFault .exeqOverflow) ∧ (s.scAt n).valid = true ∧ ∀ x ∈ t.exeq, x.valid = true) := by
  have hlane : t.scAt n = s.scAt n := by rw [h.scAt, if_neg (Nat.lt_irrefl n)]
  have htake : s.latchSC.take (n + 1) = s.latchSC.take n ++ [s.scAt n] := take_succ_getD hn
  cases hv : (s.scAt n).valid with
  | false =>
    refine .inl ⟨t, enqueueLane_idle (hlane ▸ hv), { h with scAt := fun j => ?_, records := ?_ }⟩
    · rw [h.scAt]
      by_cases hj : j = n
      · subst hj
        rw [if_neg (Nat.lt_irrefl j), if_pos (Nat.lt_succ_self j), ← hv]
      · exact if_congr (by omega) rfl rfl
    · rw [htake, multis_concat_of_invalid _ hv]
      exact h.records
  | true =>
    have hlat := hmulti hv
    cases hq : freeExeqSlot t with
    | none =>
      refine .inr ⟨enqueueLane_of_full (hlane ▸ hv) (by rwa [hlane, h.cfg_eq]) hq, rfl, fun x hx => ?_⟩
      simpa using List.findIdx?_eq_none_iff.mp hq x hx
    | some q =>
      obtain ⟨hlt, hfree⟩ := freeExeqSlot_spec hq
      refine .inl ⟨_, enqueueLane_of_multi (hlane ▸ hv) (by rwa [hlane, h.cfg_eq]) hq, ?_, ?_, ?_, fun j => ?_,
        fun p hp => ?_, ?_⟩
      · rw [h.frame]; rfl
      · exact List.length_set.trans h.lengthSC
      · exact List.length_set.trans h.length
      · rw [scAt_emptySC, State.scAt_setExeq]
        by_cases hj : j = n
        · subst hj
          rw [if_pos rfl, if_pos (Nat.lt_succ_self j), hlane]
        · rw [if_neg hj, h.scAt]
          exact if_congr (by omega) rfl rfl
      · have hset : (emptySC n (t.setExeq q { valid := true, inst := (t.scAt n).inst.entering t.cfg })).exeqAt p =
            (t.setExeq q { valid := true, inst := (t.scAt n).inst.entering t.cfg }).exeqAt p := rfl
        rw [hset, State.exeqAt_setExeq, if_neg, h.kept p hp]
        rintro ⟨rfl, -⟩
        rw [h.kept p hp, hp] at hfree
        cases hfree
      · rw [htake, multis_concat _ hv hlat, List.map_append, ← List.append_assoc]
        have hput := exeqRecords_setExeq_valid_perm (x := { valid := true, inst := (t.scAt n).inst.entering t.cfg })
          hlt hfree rfl
        rw [hlane, h.cfg_eq] at hput ⊢
        exact (hput.trans (List.perm_append_singleton ..).symm).trans (h.records.append_right _)

/-- The loop goes on to its end, or stops at a lane that finds the EXEQ full. -/
theorem enqueue_cases (hmulti : ∀ j, (s.scAt j).valid = true → 1 < lat s.cfg (s.scAt j).inst.op)
    (hwidth : s.latchSC.length = s.cfg.pipeWidth) :
    (∃ t, forLanes enqueueLane (List.range s.cfg.pipeWidth) s = .ok () t ∧ EnqueuedUpTo s s.cfg.pipeWidth t) ∨
    ∃ n t, n < s.cfg.pipeWidth ∧ EnqueuedUpTo s n t ∧ (s.scAt n).valid = true ∧ (∀ x ∈ t.exeq, x.valid = true) ∧
      forLanes enqueueLane (List.range s.cfg.pipeWidth) s = .raised (t.setFault .exeqOverflow) := by
  have hloop (m k : Nat) (hk : k + m = s.cfg.pipeWidth) : ∀ u, EnqueuedUpTo s k u →
      (∃ t, forLanes enqueueLane (List.range' k m) u = .ok () t ∧ EnqueuedUpTo s s.cfg.pipeWidth t) ∨
      ∃ n t, n < s.cfg.pipeWidth ∧ EnqueuedUpTo s n t ∧ (s.scAt n).valid = true ∧ (∀ x ∈ t.exeq, x.valid = true) ∧
        forLanes enqueueLane (List.range' k m) u = .raised (t.setFault .exeqOverflow) := by
    induction m generalizing k with
    | zero => exact fun u hu => .inl ⟨u, rfl, hk ▸ hu⟩
    | succ m ih =>
      intro u hu
      rcases hu.succ (by omega) (hmulti k) with ⟨v, hv, hnext⟩ | ⟨hraise, hvalid, hfull⟩
      · have hrun : forLanes enqueueLane (List.range' k (m + 1)) u = forLanes enqueueLane (List.range' (k + 1) m) v := by
          rw [List.range'_succ, forLanes, hv, Res.bind_ok]
        rw [hrun]
        exact ih (k + 1) (by omega) v hnext
      · exact .inr ⟨k, u, by omega, hu, hvalid, hfull, by rw [List.range'_succ, forLanes, hraise, Res.bind_raised]⟩
  rw [List.range_eq_range']
  exact hloop _ 0 (Nat.zero_add _) s (.zero s)

theorem length_multis_take_le (n : Nat) : (multis cfg (latch.take n)).length ≤ (multis cfg latch).length := by
  conv_rhs => rw [← List.take_append_drop n latch, multis, laneRecords_append, List.filter_append, List.length_append]
  exact Nat.le_add_right _ _

/-- The number of records decides: with a free slot for each the loop goes on, otherwise it stops (R152, R221). -/
theorem EnqueuedUpTo.demand_le (h : EnqueuedUpTo s n t) :
    (multis s.cfg (s.latchSC.take n)).length ≤ exeqFree s := by
  have hrecords := h.records.length_eq
  rw [List.length_append, List.length_map] at hrecords
  have hs := length_exeqRecords s
  have ht := length_exeqRecords t
  have hlength := h.length
  omega

theorem EnqueuedUpTo.lt_demand_of_full (h : EnqueuedUpTo s n t) (hn : n < s.latchSC.length)
    (hv : (s.scAt n).valid = true) (hlat : 1 < lat s.cfg (s.scAt n).inst.op) (hfull : ∀ x ∈ t.exeq, x.valid = true) :
    exeqFree s < exeqDemand s := by
  have hrecords := h.records.length_eq
  rw [List.length_append, List.length_map] at hrecords
  have hs := length_exeqRecords s
  have ht := length_exeqRecords t
  have hfree : exeqFree t = 0 := List.countP_eq_zero.mpr fun x hx => by rw [hfull x hx]; decide
  have hlength := h.length
  have hnext : (multis s.cfg (s.latchSC.take (n + 1))).length = (multis s.cfg (s.latchSC.take n)).length + 1 := by
    have htake : s.latchSC.take (n + 1) = s.latchSC.take n ++ [s.scAt n] := take_succ_getD hn
    rw [htake, multis_concat _ hv hlat, List.length_append]
    rfl
  have hle := length_multis_take_le (cfg := s.cfg) (latch := s.latchSC) (n + 1)
  rw [exeqDemand_eq]
  omega

/-! ## Ageing -/

theorem exeqRecords_exeqCycle (s : State) : exeqRecords (exeqCycle s) = (exeqRecords s).map Inst.aged := by
  simp only [exeqRecords_eq_filterMap, exeqCycle, List.filterMap_map, List.map_filterMap]
  refine congrArg (List.filterMap · s.exeq) (funext fun x => ?_)
  cases hx : x.valid <;> simp [ExeqSlot.record, ageSlot, hx, Inst.aged]

/-! ## The drain -/

/-- `moved` has left the EXEQ of `s` for the execute latch: finished records, the oldest ones. -/
structure Drained (s t : State) (moved : List Inst) : Prop where
  frame : t = { s with exeq := t.exeq, latchEX := t.latchEX }
  length : t.exeq.length = s.exeq.length
  lengthEX : t.latchEX.length = s.latchEX.length
  taken : (exeqRecords t ++ moved).Perm (exeqRecords s)
  put : (laneRecords t.latchEX).Perm (laneRecords s.latchEX ++ moved)
  finished : ∀ c ∈ moved, c.wait = 0
  oldest : ∀ c ∈ moved, ∀ d ∈ exeqRecords t, d.wait = 0 → c.seq ≤ d.seq

theorem Drained.zero (s : State) : Drained s s [] where
  frame := rfl
  length := rfl
  lengthEX := rfl
  taken := by rw [List.append_nil]
  put := by rw [List.append_nil]
  finished _ h := nomatch h
  oldest _ h := nomatch h

theorem mem_exeqRecords {c : Inst} : c ∈ exeqRecords s ↔ ∃ x ∈ s.exeq, x.valid = true ∧ x.inst = c := by
  simp [exeqRecords, and_assoc]

theorem Drained.succ {moved : List Inst} {k : Nat} {x : Inst} (h : Drained s t moved) (hk : freeExLane t = some k)
    (hx : exeqRemoveFinished t = some (x, u)) : Drained s (putEX k x u) (moved ++ [x]) := by
  obtain ⟨q, hq, hfin, hinst, rfl, hleast⟩ := exeqRemoveFinished_spec hx
  obtain ⟨hv, hwait⟩ := finished_iff.mp hfin
  rw [hinst] at hwait
  have htake := exeqRecords_setExeq_invalid_perm (x := { valid := false, inst := x }) hq hv rfl
  rw [hinst] at htake
  have hrecords : exeqRecords (putEX k x (t.setExeq q { valid := false, inst := x })) =
      exeqRecords (t.setExeq q { valid := false, inst := x }) := rfl
  refine ⟨?_, ?_, ?_, ?_, ?_, fun c hc => ?_, fun c hc d hd hdw => ?_⟩
  · rw [h.frame]; rfl
  · exact List.length_set.trans h.length
  · exact List.length_set.trans h.lengthEX
  · rw [hrecords]
    have hback : (exeqRecords (t.setExeq q { valid := false, inst := x }) ++ moved ++ [x]).Perm (exeqRecords t ++ moved) :=
      (List.perm_append_singleton ..).trans (htake.append_right moved)
    rw [← List.append_assoc]
    exact hback.trans h.taken
  · rw [← List.append_assoc]
    exact (laneRecords_putEX_perm hk x).trans ((List.perm_append_singleton ..).symm.trans (h.put.append_right _))
  · rcases List.mem_append.mp hc with hc | hc
    · exact h.finished c hc
    · rw [List.mem_singleton.mp hc, hwait]
  · have hdt : d ∈ exeqRecords t := htake.subset (List.mem_cons_of_mem _ (hrecords ▸ hd))
    rcases List.mem_append.mp hc with hc | hc
    · exact h.oldest c hc d hdt hdw
    · rw [List.mem_singleton.mp hc]
      obtain ⟨y, hy, hyv, rfl⟩ := mem_exeqRecords.mp hdt
      exact hleast y hy (finished_iff.mpr ⟨hyv, hdw⟩)

/-- The drain stops when nothing is finished or the execute latch is full; a lane for each move is enough of them. -/
theorem Drained.drainUpTo : ∀ (n : Nat) {t : State} {moved : List Inst}, Drained s t moved →
    t.latchEX.length ≤ laneCount t.latchEX + n → ∃ moved', Drained s (drainUpTo n t) moved' ∧
      ((∀ c ∈ exeqRecords (Machine.drainUpTo n t), c.wait ≠ 0) ∨
        ∀ l ∈ (Machine.drainUpTo n t).latchEX, l.valid = true)
  | 0, t, moved, h, hn => ⟨moved, h, .inr (List.countP_eq_length.mp
      (Nat.le_antisymm List.countP_le_length hn))⟩
  | n + 1, t, moved, h, hn => by
    unfold Machine.drainUpTo
    cases hk : freeExLane t with
    | none =>
      refine ⟨moved, h, .inr fun l hl => ?_⟩
      simpa using List.findIdx?_eq_none_iff.mp hk l hl
    | some k =>
      cases hx : exeqRemoveFinished t with
      | none =>
        refine ⟨moved, h, .inl fun c hc hw => ?_⟩
        obtain ⟨y, hy, hyv, rfl⟩ := mem_exeqRecords.mp hc
        exact absurd (finished_iff.mpr ⟨hyv, hw⟩) (by rw [exeqRemoveFinished_eq_none.mp hx y hy]; decide)
      | some p =>
        obtain ⟨x, u⟩ := p
        refine Drained.drainUpTo n (h.succ hk hx) ?_
        obtain ⟨q, -, -, -, rfl, -⟩ := exeqRemoveFinished_spec hx
        have hcount := (laneRecords_putEX_perm (s := t) hk x).length_eq
        rw [List.length_cons, ← laneCount_eq_length, ← laneCount_eq_length] at hcount
        have hEX : (putEX k x (t.setExeq q { valid := false, inst := x })).latchEX = (putEX k x t).latchEX := rfl
        have hlength : (putEX k x t).latchEX.length = t.latchEX.length := List.length_set
        rw [hEX]
        omega

end

end Sys2Proof.Machine
end

section
/-! PROOFS. Execute from an empty execute latch (46_execute_writeback.md R220, R221): its whole effect on the records, or
the overflow. -/

namespace Sys2Proof.Machine

/-- Execute has taken `s` to `t`, and `moved` from the EXEQ to the execute latch. -/
structure Executed (s t : State) (moved : List Inst) : Prop where
  frame : Stage.execute.Frame s t
  length : t.exeq.length = s.exeq.length
  lengthEX : t.latchEX.length = s.latchEX.length
  latchSC : t.latchSC = s.latchSC.map fun l => { l with valid := false }
  queue : (exeqRecords t ++ moved).Perm
    ((exeqRecords s ++ (multis s.cfg s.latchSC).map (Inst.entering s.cfg)).map Inst.aged)
  latchEX : (laneRecords t.latchEX).Perm (singles s.cfg s.latchSC ++ moved)
  finished : ∀ c ∈ moved, c.wait = 0
  oldest : ∀ c ∈ moved, ∀ d ∈ exeqRecords t, d.wait = 0 → c.seq ≤ d.seq
  stop : (∀ c ∈ exeqRecords t, c.wait ≠ 0) ∨ ∀ l ∈ t.latchEX, l.valid = true

/-- Execute has found the EXEQ full (R152, R221): what stood in it stands in it still. -/
structure Overflowed (s t : State) : Prop where
  frame : t = { s with exeq := t.exeq, latchSC := t.latchSC, latchEX := t.latchEX, fault := some .exeqOverflow }
  full : ∀ x ∈ t.exeq, x.valid = true
  kept : ∀ q, (s.exeqAt q).valid = true → t.exeqAt q = s.exeqAt q

section
variable {s t u : State} {moved : List Inst}

/-- What the bypass leaves in the schedule latch goes to the EXEQ. -/
theorem BypassedUpTo.multi (hwidths : WidthsOk s) (h : BypassedUpTo s s.cfg.pipeWidth u) (j : Nat)
    (hv : (u.scAt j).valid = true) : (s.scAt j).valid = true ∧ u.scAt j = s.scAt j ∧ 1 < lat u.cfg (u.scAt j).inst.op := by
  have hj : j < s.cfg.pipeWidth := by
    have hlt := lt_length_of_lane_valid hv
    rwa [h.lengthSC, hwidths.latchSC] at hlt
  have hlane := h.scAt j
  by_cases hsingle : (s.scAt j).single s.cfg = true
  · rw [if_pos ⟨hj, hsingle⟩] at hlane
    rw [hlane] at hv
    cases hv
  · rw [if_neg fun hand => hsingle hand.2] at hlane
    rw [hlane] at hv ⊢
    rw [Lane.single, hv, Bool.true_and] at hsingle
    exact ⟨hv, rfl, h.cfg_eq ▸ not_single_iff.mp (by rw [Bool.eq_false_iff.mpr hsingle]; rfl)⟩

theorem BypassedUpTo.exeqDemand_eq (hwidths : WidthsOk s) (h : BypassedUpTo s s.cfg.pipeWidth u) :
    exeqDemand u = exeqDemand s := by
  rw [Machine.exeqDemand_eq, Machine.exeqDemand_eq, h.latchSC_eq hwidths, h.cfg_eq, multis_bypassed]

theorem EnqueuedUpTo.latchSC_eq (hwidth : s.latchSC.length = s.cfg.pipeWidth) (h : EnqueuedUpTo s s.cfg.pipeWidth t) :
    t.latchSC = s.latchSC.map fun l => { l with valid := false } := by
  refine List.ext_getElem (by rw [h.lengthSC, List.length_map]) fun j hj hj' => ?_
  rw [List.length_map] at hj'
  have hlane := h.scAt j
  rw [if_pos (hwidth ▸ hj'), State.scAt, State.scAt, List.getD_eq_getElem _ _ hj, List.getD_eq_getElem _ _ hj'] at hlane
  rw [hlane, List.getElem_map]

/-- Execute goes on exactly where the EXEQ has a free slot for each multi-cycle record. -/
theorem execute_cases (hwidths : WidthsOk s) (hEX : ∀ l ∈ s.latchEX, l.valid = false) :
    (exeqDemand s ≤ exeqFree s ∧ ∃ t moved, execute s = .ok () t ∧ Executed s t moved) ∨
      (exeqFree s < exeqDemand s ∧ ∃ t, execute s = .raised t ∧ Overflowed s t) := by
  obtain ⟨u, hu, hbypass⟩ := bypass_ok hwidths hEX
  have hwidth : u.latchSC.length = u.cfg.pipeWidth := by rw [hbypass.lengthSC, hwidths.latchSC, hbypass.cfg_eq]
  have hexeq : u.exeq = s.exeq := by rw [hbypass.frame]
  have hfree : exeqFree u = exeqFree s := by rw [exeqFree, hexeq, exeqFree]
  have hdemand := hbypass.exeqDemand_eq hwidths
  have hmulti (j : Nat) (hv : (u.scAt j).valid = true) : 1 < lat u.cfg (u.scAt j).inst.op :=
    (hbypass.multi hwidths j hv).2.2
  rw [execute, hu, Res.bind_ok, ← hbypass.cfg_eq]
  rcases enqueue_cases hmulti hwidth with ⟨v, hv, henqueue⟩ | ⟨n, v, hn, henqueue, hvalid, hfull, hv⟩
  · rw [hv, Res.bind_ok]
    have hroom := henqueue.demand_le
    rw [← hwidth, List.take_length, ← Machine.exeqDemand_eq] at hroom
    refine .inl ⟨by omega, ?_⟩
    obtain ⟨moved, hdrain, hstop⟩ := Drained.drainUpTo v.latchEX.length (.zero (exeqCycle v)) (Nat.le_add_left _ _)
    refine ⟨_, moved, rfl, ?_⟩
    have hSC : (drainUpTo v.latchEX.length (exeqCycle v)).latchSC = v.latchSC := by rw [hdrain.frame]; rfl
    have hlatchEX : (exeqCycle v).latchEX = u.latchEX := by rw [henqueue.frame]; rfl
    refine ⟨?_, ?_, ?_, ?_, ?_, ?_, hdrain.finished, hdrain.oldest, hstop⟩
    · unfold Stage.Frame
      rw [hdrain.frame, henqueue.frame, hbypass.frame]
      rfl
    · rw [hdrain.length, exeqCycle, List.length_map, henqueue.length, hexeq]
    · rw [hdrain.lengthEX, hlatchEX, hbypass.lengthEX]
    · rw [hSC, henqueue.latchSC_eq hwidth, hbypass.latchSC_eq hwidths, List.map_map]
      refine List.map_congr_left fun l _ => ?_
      rw [Function.comp]
      split <;> rfl
    · refine hdrain.taken.trans ?_
      rw [exeqRecords_exeqCycle]
      refine (henqueue.records.trans ?_).map Inst.aged
      rw [← hwidth, List.take_length, hbypass.cfg_eq, hbypass.latchSC_eq hwidths, multis_bypassed]
      exact .of_eq (congrArg (· ++ _) (by rw [exeqRecords, hexeq, exeqRecords]))
    · refine hdrain.put.trans ?_
      rw [hlatchEX]
      have hrecords := hbypass.records
      rw [← hwidths.latchSC, List.take_length] at hrecords
      exact hrecords.append_right moved
  · rw [hv, Res.bind_raised]
    have hlt := henqueue.lt_demand_of_full (hwidth.symm ▸ hn) hvalid (hmulti n hvalid) hfull
    refine .inr ⟨by omega, _, rfl, ?_, hfull, fun q hq => ?_⟩
    · rw [henqueue.frame, hbypass.frame]
      rfl
    · have hat : u.exeqAt q = s.exeqAt q := by rw [State.exeqAt, hexeq, State.exeqAt]
      exact (henqueue.kept q (hat ▸ hq)).trans hat

theorem executed_of_execute (hwidths : WidthsOk s) (hEX : ∀ l ∈ s.latchEX, l.valid = false)
    (h : execute s = .ok () t) : exeqDemand s ≤ exeqFree s ∧ ∃ moved, Executed s t moved := by
  rcases execute_cases hwidths hEX with ⟨hroom, u, moved, hu, hexecuted⟩ | ⟨-, u, hu, -⟩
  · obtain ⟨⟩ := h.symm.trans hu
    exact ⟨hroom, moved, hexecuted⟩
  · cases h.symm.trans hu

theorem mem_laneRecords {latch : List Lane} {c : Inst} :
    c ∈ laneRecords latch ↔ ∃ l ∈ latch, l.valid = true ∧ l.inst = c := by
  simp [laneRecords, and_assoc]

theorem travellers_seqs_of_execute (hrun : execute s = .ok () t) :
    ((travellers t).map fun c => c.seq).Perm ((travellers s).map fun c => c.seq) := by
  have hseqs := (carried_execute hrun).copies.map fun c => c.seq
  simp only [uncountedTravellers, List.map_map] at hseqs
  exact hseqs

/-- Settles O22: the records of the two paths, and the overflow. -/
theorem executePathDependsOnLatencyAlone : Obligations.ExecutePathDependsOnLatencyAlone := by
  intro s hshape hEX
  have hwidths := widthsOk_of_wellShaped hshape
  refine ⟨fun hroom => ?_, fun hover => ?_⟩
  · rcases execute_cases hwidths hEX with ⟨-, t, moved, hrun, h⟩ | ⟨hover, -⟩
    · refine ⟨t, hrun, h.latchSC, fun l hl hv hlat => ?_, fun l hl hv hlat => ?_, travellers_seqs_of_execute hrun, h.frame⟩
      · have hsingle : l.inst ∈ singles s.cfg s.latchSC :=
          List.mem_filter.mpr ⟨mem_laneRecords.mpr ⟨l, hl, hv, rfl⟩, single_iff.mpr hlat⟩
        exact mem_laneRecords.mp (h.latchEX.mem_iff.mpr (List.mem_append_left _ hsingle))
      · have hmulti : l.inst ∈ multis s.cfg s.latchSC :=
          List.mem_filter.mpr ⟨mem_laneRecords.mpr ⟨l, hl, hv, rfl⟩, not_single_iff.mpr hlat⟩
        have hqueue : (l.inst.entering s.cfg).aged ∈ exeqRecords t ++ moved :=
          h.queue.mem_iff.mpr (List.mem_map_of_mem (List.mem_append_right _ (List.mem_map_of_mem hmulti)))
        rcases List.mem_append.mp hqueue with hqueue | hmoved
        · exact mem_exeqRecords.mp hqueue
        · have hwait : lat s.cfg l.inst.op - 1 = 0 := h.finished _ hmoved
          omega
    · omega
  · rcases execute_cases hwidths hEX with ⟨hroom, -⟩ | ⟨-, t, hrun, h⟩
    · omega
    · refine ⟨t, hrun, by rw [h.frame], h.full, ?_⟩
      conv_lhs => rw [h.frame]
      rw [h.frame]

/-- Settles O23: an aged record stays, or is moved when it is at 0, or waits where the execute latch is full. -/
theorem countdownLeavesTheExeqAtZero : Obligations.CountdownLeavesTheExeqAtZero := by
  intro s t hshape hEX hrun x hx hv
  obtain ⟨-, moved, h⟩ := executed_of_execute (widthsOk_of_wellShaped hshape) hEX hrun
  have hqueue : x.inst.aged ∈ exeqRecords t ++ moved :=
    h.queue.mem_iff.mpr (List.mem_map_of_mem (List.mem_append_left _ (mem_exeqRecords.mpr ⟨x, hx, hv, rfl⟩)))
  refine ⟨fun hwait => ?_, fun hwait => ?_⟩
  · rcases List.mem_append.mp hqueue with hqueue | hmoved
    · exact mem_exeqRecords.mp hqueue
    · have hzero : x.inst.wait - 1 = 0 := h.finished _ hmoved
      omega
  · have hzero : x.inst.aged = { x.inst with wait := 0 } := by rw [Inst.aged, Nat.sub_eq_zero_of_le hwait]
    rw [← hzero]
    rcases List.mem_append.mp hqueue with hqueue | hmoved
    · rcases h.stop with hnone | hfull
      · exact absurd (by rw [hzero]) (hnone _ hqueue)
      · exact .inr ⟨hfull, mem_exeqRecords.mp hqueue⟩
    · exact .inl (mem_laneRecords.mp (h.latchEX.mem_iff.mpr (List.mem_append_right _ hmoved)))

end

end Sys2Proof.Machine
end

section
/-! PROOFS. Schedule's choice (41_rob.md R141, 45_schedule.md R201 to R204): program order is age order, so each policy
selects the oldest slot of those it considers, and a tick's lanes leave no older one behind. -/

namespace Sys2Proof.Machine

section
variable {s t : State} {g : Nat}

/-! ## Program order -/

theorem mem_robOrder_iff (hhead : s.robHead < s.cfg.robSize) {u : Nat} :
    u ∈ robOrder s ↔ u < s.cfg.robSize ∧ (s.robAt u).valid = true := by
  refine ⟨mem_robOrder, fun ⟨hu, hv⟩ => ?_⟩
  obtain ⟨k, hk, rfl⟩ := exists_fromHead hhead hu
  exact List.mem_filter.mpr ⟨List.mem_map.mpr ⟨k, List.mem_range.mpr hk, rfl⟩, hv⟩

/-- Along the program order the sequence numbers grow (R277). -/
theorem robOrder_sorted (hw : WindowOk s) :
    (robOrder s).Pairwise fun a b => (s.robAt a).inst.seq < (s.robAt b).inst.seq := by
  obtain ⟨-, hvalid, hseq⟩ := hw
  rw [robOrder, List.filter_map, List.pairwise_map]
  have hplace {k : Nat} (hk : k ∈ (List.range s.cfg.robSize).filter
      ((fun t => (s.robAt t).valid) ∘ fun k => (s.robHead + k) % s.cfg.robSize)) :
      (slotFromHead s k).inst.seq = s.retiredCount + 1 + k := by
    obtain ⟨hrange, hv⟩ := List.mem_filter.mp hk
    have hlt := List.mem_range.mp hrange
    exact hseq k hlt (of_decide_eq_true ((hvalid k hlt).symm.trans hv))
  refine List.Pairwise.imp_of_mem (fun {j k} hj hk hjk => ?_) (List.pairwise_lt_range.filter _)
  have hjseq := hplace hj
  have hkseq := hplace hk
  rw [slotFromHead] at hjseq hkseq
  omega

/-- Settles O26: the window from the head on, in place and in number. -/
theorem programOrderIsAgeOrder : Obligations.ProgramOrderIsAgeOrder := by
  intro s hinv
  have hs := hinv.robOk
  refine ⟨hs.robOrder, fun u => mem_robOrder_iff hs.headLt, ?_⟩
  rw [hs.robOrder, List.map_map, List.range'_eq_map_range]
  exact List.map_congr_left fun k hk => hs.seq_fromHead (List.mem_range.mp hk)

/-! ## The oldest of a sorted list -/

/-- In a list that grows strictly by a key, the first member with a property is the one of smallest key. -/
theorem find?_eq_some_iff_least {α : Type} {key : α → Nat} {p : α → Bool} {a : α} : ∀ {l : List α},
    l.Pairwise (fun x y => key x < key y) →
    (l.find? p = some a ↔ a ∈ l ∧ p a = true ∧ ∀ b ∈ l, p b = true → key a ≤ key b)
  | [], _ => by simp
  | x :: l, hsorted => by
    obtain ⟨hx, hl⟩ := List.pairwise_cons.mp hsorted
    cases hp : p x with
    | true =>
      rw [List.find?_cons_of_pos hp]
      constructor
      · rintro ⟨⟩
        refine ⟨List.mem_cons_self, hp, fun b hb _ => ?_⟩
        rcases List.mem_cons.mp hb with rfl | hb
        · exact Nat.le_refl _
        · exact (hx b hb).le
      · rintro ⟨ha, -, hleast⟩
        rcases List.mem_cons.mp ha with rfl | ha
        · rfl
        · exact absurd (hx a ha) (Nat.not_lt.mpr (hleast x List.mem_cons_self hp))
    | false =>
      have hne : ¬p x = true := Bool.eq_false_iff.mp hp
      rw [List.find?_cons_of_neg hne, find?_eq_some_iff_least hl]
      simp only [List.mem_cons, forall_eq_or_imp, hp, Bool.false_eq_true, false_implies, true_and]
      refine and_congr_left fun ⟨ha, _⟩ => (or_iff_right ?_).symm
      rintro rfl
      exact hne ha

/-- In order, the first slot that is not executing is selected if its operands are ready (R203). -/
theorem firstInOrder_iff {ts : List Nat} : firstInOrder s ts = some g ↔
    ts.find? (fun u => !(s.robAt u).exec) = some g ∧ operandsReady s g = true := by
  induction ts with
  | nil => simp [firstInOrder]
  | cons u us ih =>
    cases hexec : (s.robAt u).exec with
    | true =>
      rw [firstInOrder, if_pos hexec, List.find?_cons_of_neg (by rw [hexec]; decide), ih]
    | false =>
      rw [firstInOrder, if_neg (by rw [hexec]; decide), List.find?_cons_of_pos (by rw [hexec]; rfl)]
      split
      next hready => exact ⟨fun h => ⟨h, Option.some.inj h ▸ hready⟩, fun ⟨h, _⟩ => h⟩
      next hready => exact ⟨fun h => (nomatch h), fun ⟨h, hg⟩ => absurd (Option.some.inj h ▸ hg) hready⟩

/-- What the selection looks for: a slot in use and not executing, out of order one with its operands ready. -/
def Eligible (s : State) (u : Nat) : Prop :=
  candidate s u = true ∧ (s.cfg.schedPolicy = .inOrder ∨ operandsReady s u = true)

theorem lt_robSize_of_candidate (hlength : s.rob.length = s.cfg.robSize) {u : Nat} (hu : candidate s u = true) :
    u < s.cfg.robSize ∧ (s.robAt u).valid = true := by
  rw [candidate, Bool.and_eq_true] at hu
  exact ⟨hlength ▸ lt_length_of_slot_valid hu.1, hu.1⟩

/-- The first slot in program order with a property is the oldest slot in use with it. -/
theorem find?_robOrder_iff (hhead : s.robHead < s.cfg.robSize) (hw : WindowOk s) {p : Nat → Bool} : (robOrder s).find? p = some g ↔
    (g < s.cfg.robSize ∧ (s.robAt g).valid = true) ∧ p g = true ∧
      ∀ u < s.cfg.robSize, (s.robAt u).valid = true → p u = true → (s.robAt g).inst.seq ≤ (s.robAt u).inst.seq := by
  rw [find?_eq_some_iff_least (robOrder_sorted hw), mem_robOrder_iff hhead]
  simp only [mem_robOrder_iff hhead, and_imp]

section
variable (hlength : s.rob.length = s.cfg.robSize) (hhead : s.robHead < s.cfg.robSize) (hw : WindowOk s)
include hlength hhead hw

theorem selectOoo_iff : selectOoo s = some g ↔
    g < s.cfg.robSize ∧ candidate s g = true ∧ operandsReady s g = true ∧
      ∀ u < s.cfg.robSize, candidate s u = true → operandsReady s u = true →
        (s.robAt g).inst.seq ≤ (s.robAt u).inst.seq := by
  rw [selectOoo, find?_robOrder_iff hhead hw]
  simp only [Bool.and_eq_true, and_imp]
  constructor
  · rintro ⟨⟨hg, -⟩, ⟨hcand, hready⟩, hleast⟩
    exact ⟨hg, hcand, hready, fun u hu huc hur => hleast u hu (lt_robSize_of_candidate hlength huc).2 huc hur⟩
  · rintro ⟨hg, hcand, hready, hleast⟩
    exact ⟨⟨hg, (lt_robSize_of_candidate hlength hcand).2⟩, ⟨hcand, hready⟩, fun u hu _ => hleast u hu⟩

omit hlength in
theorem selectInOrder_iff : selectInOrder s = some g ↔
    g < s.cfg.robSize ∧ candidate s g = true ∧ operandsReady s g = true ∧
      ∀ u < s.cfg.robSize, candidate s u = true → (s.robAt g).inst.seq ≤ (s.robAt u).inst.seq := by
  rw [selectInOrder, firstInOrder_iff, find?_robOrder_iff hhead hw]
  simp only [candidate, Bool.and_eq_true]
  constructor
  · rintro ⟨⟨⟨hg, hv⟩, hexec, hleast⟩, hready⟩
    exact ⟨hg, ⟨hv, hexec⟩, hready, fun u hu huc => hleast u hu huc.1 huc.2⟩
  · rintro ⟨hg, ⟨hv, hexec⟩, hready, hleast⟩
    exact ⟨⟨⟨hg, hv⟩, hexec, fun u hu huv hue => hleast u hu ⟨huv, hue⟩⟩, hready⟩

/-- Either policy selects the oldest eligible slot, if it has its operands. -/
theorem select_iff : select s = some g ↔
    candidate s g = true ∧ operandsReady s g = true ∧
      ∀ u, Eligible s u → (s.robAt g).inst.seq ≤ (s.robAt u).inst.seq := by
  unfold select
  split
  next hpolicy =>
    rw [selectInOrder_iff hhead hw]
    constructor
    · rintro ⟨-, hcand, hready, hleast⟩
      exact ⟨hcand, hready, fun u hu => hleast u (lt_robSize_of_candidate hlength hu.1).1 hu.1⟩
    · rintro ⟨hcand, hready, hleast⟩
      exact ⟨(lt_robSize_of_candidate hlength hcand).1, hcand, hready, fun u _ hu => hleast u ⟨hu, .inl hpolicy⟩⟩
  next hpolicy =>
    rw [selectOoo_iff hlength hhead hw]
    constructor
    · rintro ⟨-, hcand, hready, hleast⟩
      refine ⟨hcand, hready, fun u ⟨huc, hur⟩ => hleast u (lt_robSize_of_candidate hlength huc).1 huc (hur.resolve_left ?_)⟩
      rw [hpolicy]
      decide
    · rintro ⟨hcand, hready, hleast⟩
      exact ⟨(lt_robSize_of_candidate hlength hcand).1, hcand, hready, fun u _ hu hur => hleast u ⟨hu, .inr hur⟩⟩

theorem seq_injective_of_window {u v : Nat} (hu : (s.robAt u).valid = true) (hv : (s.robAt v).valid = true)
    (he : (s.robAt u).inst.seq = (s.robAt v).inst.seq) : u = v := by
  have hmem {x : Nat} (hx : (s.robAt x).valid = true) : x ∈ robOrder s :=
    (mem_robOrder_iff hhead).mpr ⟨hlength ▸ lt_length_of_slot_valid hx, hx⟩
  have hnodup : ((robOrder s).map fun x => (s.robAt x).inst.seq).Nodup := by
    rw [List.nodup_iff_pairwise_ne, List.pairwise_map]
    exact (robOrder_sorted hw).imp fun h => h.ne
  exact List.inj_on_of_nodup_map hnodup (hmem hu) (hmem hv) he

end

/-! ## Over the lanes of a tick -/

theorem WindowOk.of_sameRecords (hw : WindowOk s) (h : SameRecords s t) : WindowOk t := by
  obtain ⟨htail, hvalid, hseq⟩ := hw
  simp only [WindowOk, slotFromHead, h.robCount, h.cfg, h.robHead, h.robTail, h.retiredCount, (h.slot _).1,
    (h.slot _).2.1]
  exact ⟨htail, hvalid, hseq⟩

/-- Every slot taken so far is older than every eligible one left (R203, R204). -/
structure TakenOldest (s t : State) : Prop where
  same : SameRecords s t
  older : ∀ g u, (s.robAt g).exec = false → (t.robAt g).exec = true → Eligible t u →
    (s.robAt g).inst.seq < (t.robAt u).inst.seq

theorem TakenOldest.scheduled {u : State} {i g : Nat} (hlength : s.rob.length = s.cfg.robSize)
    (hhead : s.robHead < s.cfg.robSize) (hw : WindowOk s) (h : TakenOldest s t) (hg : Scheduled t u i g) :
    TakenOldest s u := by
  refine ⟨h.same.trans hg.sameRecords, fun v w hv hv' hw' => ?_⟩
  have hwg : w ≠ g := by
    rintro rfl
    have hexec := hw'.1
    rw [candidate, hg.robAt, if_pos rfl] at hexec
    simp at hexec
  have hslot : u.robAt w = t.robAt w := by rw [hg.robAt, if_neg hwg]
  have helig : Eligible t w := by
    obtain ⟨hcand, hpolicy⟩ := hw'
    rw [candidate, hslot] at hcand
    rw [operandsReady, hslot, hg.sameRecords.cfg] at hpolicy
    exact ⟨hcand, hpolicy⟩
  rw [hslot]
  by_cases hvg : v = g
  · subst hvg
    have hlength' : t.rob.length = t.cfg.robSize := by rw [h.same.robLength, h.same.cfg, hlength]
    have hhead' : t.robHead < t.cfg.robSize := by rw [h.same.robHead, h.same.cfg]; exact hhead
    have hw'' := hw.of_sameRecords h.same
    obtain ⟨hcand, -, hleast⟩ := (select_iff hlength' hhead' hw'').mp hg.selected
    have hseq := (h.same.slot v).2.1
    have hle := hleast w helig
    have hne : (t.robAt v).inst.seq ≠ (t.robAt w).inst.seq := fun he =>
      hwg (seq_injective_of_window hlength' hhead' hw'' (lt_robSize_of_candidate hlength' hcand).2
        (lt_robSize_of_candidate hlength' helig.1).2 he).symm
    omega
  · rw [hg.robAt, if_neg hvg] at hv'
    exact h.older v w hv hv' helig

theorem takenOldest_of_schedule (hlength : s.rob.length = s.cfg.robSize) (hhead : s.robHead < s.cfg.robSize)
    (hw : WindowOk s) (h : schedule s = .ok () t) : TakenOldest s t :=
  schedule_keeps (P := fun _ u => TakenOldest s u) (fun _ _ hu => hu)
    (fun _ _ _ _ _ hg hu => hu.scheduled hlength hhead hw hg)
    ⟨.of_rob_eq rfl rfl rfl rfl rfl rfl, fun g u hg hg' => absurd (hg.symm.trans hg') (by decide)⟩ h

/-- Settles O25: the two policies by age, the configured one, and the lanes of a tick. -/
theorem selectionPrefersProgramOrder : Obligations.SelectionPrefersProgramOrder := by
  refine ⟨fun s g hinv => ?_, fun s => ⟨fun hpolicy => ?_, fun hpolicy => ?_⟩, fun s t hshape hw hrun g u hg hg' hu hready => ?_⟩
  · have hs := hinv.robOk
    exact ⟨selectOoo_iff hs.robLength hs.headLt hs.window, selectInOrder_iff hs.headLt hs.window⟩
  · rw [select, hpolicy]
  · rw [select, hpolicy]
  · have h := takenOldest_of_schedule (length_rob_of_wellShaped hshape) (robHead_lt_of_wellShaped hshape) hw hrun
    exact h.older g u hg hg' ⟨hu, hready.imp_left fun hpolicy => h.same.cfg ▸ hpolicy⟩

/-! ## The head of the ROB (49_properties.md section 8) -/

/-- The head has the smallest number of the ROB. -/
theorem RobOk.head_oldest (hs : RobOk s) {u : Nat} (hu : (s.robAt u).valid = true) :
    (s.robAt s.robHead).inst.seq ≤ (s.robAt u).inst.seq := by
  obtain ⟨k, hk, -, hseq⟩ := hs.place_of_valid hu
  have hfirst := hs.seq_fromHead (k := 0) (by omega)
  rw [slotFromHead, Nat.add_zero, Nat.mod_eq_of_lt hs.headLt] at hfirst
  omega

/-- A source that is not ready waits on an older producer, and none is older than the head (R279). -/
theorem RobOk.operandsReady_head (hs : RobOk s) (htags : TagsOk s) (hcount : 0 < robCount s) :
    operandsReady s s.robHead = true := by
  have hready {src tag : Option Nat} {ready : Bool} (hpending : PendingOk s s.robHead src tag ready) : ready = true := by
    by_contra hnot
    rw [Bool.not_eq_true] at hnot
    obtain ⟨-, g, -, -, hv, -, hseq, -⟩ := hpending hnot
    have hle := hs.head_oldest hv
    omega
  obtain ⟨h1, h2⟩ := htags _ hs.headLt (hs.head_valid_iff.mpr hcount)
  rw [operandsReady, hready h1, hready h2]
  rfl

theorem RobOk.select_head (hs : RobOk s) (htags : TagsOk s) (hcand : candidate s s.robHead = true) :
    select s = some s.robHead := by
  have hv := (lt_robSize_of_candidate hs.robLength hcand).2
  refine (select_iff hs.robLength hs.headLt hs.window).mpr
    ⟨hcand, hs.operandsReady_head htags (hs.head_valid_iff.mp hv), fun u hu => ?_⟩
  exact hs.head_oldest (lt_robSize_of_candidate hs.robLength hu.1).2

/-- Settles O55: nothing the head could wait for is left, and nothing is older. -/
theorem robHeadIsNeverBlocked : Obligations.RobHeadIsNeverBlocked := fun _ hinv hcount =>
  ⟨hinv.robOk.operandsReady_head hinv.tags (Nat.pos_of_ne_zero hcount), hinv.robOk.select_head hinv.tags⟩

/-- Settles O57: the halt says that everything fetched has retired, and the counts leave nothing over. -/
theorem haltedMachineIsEmpty : Obligations.HaltedMachineIsEmpty := by
  intro s hinv hhalted
  obtain ⟨hbefore, hafter⟩ := hinv.halt
  obtain ⟨-, -, hlast⟩ := hinv.front
  have heos : s.eosSeen = true := by
    by_contra heos
    obtain ⟨-, hrunning, -⟩ := hbefore (Bool.not_eq_true _ ▸ heos)
    exact Bool.false_ne_true (hrunning.symm.trans hhalted)
  obtain ⟨hhalt, hdone⟩ := hafter heos
  have hretired : s.retiredCount = s.lastSeq := of_decide_eq_true (hdone.symm.trans hhalted)
  have hstop : running s = false := by rw [running, hhalted]; rfl
  refine ⟨heos, hretired.trans hhalt.symm, hhalt, by omega, by omega, by omega,
    hinv.no_travellers_of_not_running hstop, fun r hr => ?_⟩
  cases hg : s.ratAt r with
  | none => rfl
  | some g =>
    obtain ⟨hmapped, -⟩ := hinv.rat
    obtain ⟨k, hk, -⟩ := hinv.robOk.place_of_valid (hmapped r hr g hg).1
    omega

end

end Sys2Proof.Machine
end

section
/-! PROOFS. Issue as a whole (spec/44_issue_rename.md): one issue, two in a row, and how many a tick makes. -/

namespace Sys2Proof.Machine

section
variable {s t u : State} {j : Nat} {x : Inst}

/-! ## One issue -/

theorem resolveSource_ok {src : Option Nat} (h : ∀ m, src.bind s.ratAt = some m → (s.robAt m).valid = true) :
    ∃ a, resolveSource src s = .ok a s := by
  cases hres : resolveSource src s with
  | ok a u =>
    obtain ⟨rfl, -⟩ := resolveSource_eq_ok hres
    exact ⟨a, rfl⟩
  | raised u =>
    obtain ⟨m, hm, hv, -⟩ := resolveSource_eq_raised hres
    exact absurd ((h m hm).symm.trans hv) (by decide)

/-- With space and every mapping live an issue does not raise. -/
theorem issueOne_ok (hspace : robHasSpace s = true) (hmapped : ∀ r m, s.ratAt r = some m → (s.robAt m).valid = true)
    (j : Nat) : ∃ t, issueOne j s = .ok () t := by
  have hlive (src : Option Nat) (m : Nat) (hm : src.bind s.ratAt = some m) : (s.robAt m).valid = true := by
    obtain ⟨r, -, hr⟩ := Option.bind_eq_some_iff.mp hm
    exact hmapped r m hr
  obtain ⟨a, ha⟩ := resolveSource_ok (hlive (s.idAt j).inst.src1)
  obtain ⟨b, hb⟩ := resolveSource_ok (hlive (s.idAt j).inst.src2)
  rw [issueOne, resolveSources, ha, Res.bind_ok, hb, Res.bind_ok, Res.bind_ok, robInsert, if_pos hspace, Res.bind_ok]
  exact ⟨_, rfl⟩

theorem Issued.robAt_of_length (h : Issued s t j x) (hlength : s.rob.length = s.cfg.robSize)
    (htail : s.robTail < s.cfg.robSize) (u : Nat) : t.robAt u =
      if u = s.robTail then { valid := true, exec := false, ready := false, inst := x } else s.robAt u := by
  rw [State.robAt, h.rob, getD_set]
  exact if_congr (and_iff_left (hlength.symm ▸ htail)) rfl rfl

/-- Settles O28: the record Issue makes, and the tables it writes. -/
theorem issueResolvesThenRenames : Obligations.IssueResolvesThenRenames := by
  rintro s j _ rfl hspace hlength htail hdest hmapped
  obtain ⟨t, hrun⟩ := issueOne_ok hspace hmapped j
  have h := issued_of_issueOne hrun
  have hslot := h.robAt_of_length hlength htail
  refine ⟨t, hrun, ?_, fun u hu => ?_, fun r => ?_, h.robTail, h.latchID, ?_⟩
  · rw [hslot, if_pos rfl]
    rfl
  · rw [hslot, if_neg hu]
  · rw [h.ratAt]
    exact if_congr (and_iff_left_of_imp fun hr => hdest r hr) rfl rfl
  · rw [h.rob, h.robTail, h.latchID]
    exact h.frame

/-- Settles O29: the second issue reads the mapping that the first one wrote, and the slot it names is new. -/
theorem dependentPairIsLinked : Obligations.DependentPairIsLinked := by
  intro s s1 s2 j k r hlength htail hr hdest hrun1 hrun2
  have h1 := issued_of_issueOne hrun1
  have h2 := issued_of_issueOne hrun2
  have hlength1 : s1.rob.length = s1.cfg.robSize := by rw [h1.rob, List.length_set, hlength, h1.cfg]
  have htail1 : s1.robTail < s1.cfg.robSize := by
    rw [h1.robTail, h1.cfg]
    exact Nat.mod_lt _ s.cfg.one_le_robSize
  have hfirst := h1.robAt_of_length hlength htail s.robTail
  rw [if_pos rfl] at hfirst
  have hne : s1.robTail ≠ s.robTail := fun he => by
    have hfree := h2.tailFree
    rw [he, hfirst] at hfree
    cases hfree
  have hmap : s1.ratAt r = some s.robTail := by
    rw [h1.ratAt, if_pos ⟨hdest, hr⟩]
  have hsecond := h2.robAt_of_length hlength1 htail1
  have hsource {src : Option Nat} (hsrc : src = some r) : src.bind s1.ratAt = some s.robTail ∧
      ((src.bind s1.ratAt).map fun m => (s1.robAt m).ready).getD true = false := by
    rw [hsrc, Option.bind_some, hmap, Option.map_some, hfirst]
    exact ⟨rfl, rfl⟩
  refine ⟨fun hsrc => ?_, fun hsrc => ?_, ?_, hne⟩
  · rw [hsecond, if_pos rfl]
    exact hsource hsrc
  · rw [hsecond, if_pos rfl]
    exact hsource hsrc
  · rw [hsecond, if_neg hne.symm, hfirst]
    exact h1.tag

/-! ## The issues of a tick -/

theorem oldestLane_eq_none {latch : List Lane} : oldestLane latch = none ↔ laneCount latch = 0 := by
  rw [oldestLane, oldest_eq_none, laneCount, List.countP_eq_zero]
  constructor
  · intro h l hl hv
    exact h l.inst.seq (List.mem_map.mpr ⟨l, hl, if_pos hv⟩)
  · intro h b hb
    obtain ⟨l, hl, hkey⟩ := List.mem_map.mp hb
    rw [if_neg (h l hl)] at hkey
    cases hkey

/-- The fetch latch holds the sequence numbers after those in the ROB and the decode latch, and `last_seq` is the last
(R271). -/
structure FetchedOk (s : State) : Prop where
  seqs : (latchSeqs s.latchFE).Perm
    (List.range' (s.retiredCount + robCount s + laneCount s.latchID + 1) (laneCount s.latchFE))
  lastSeq : s.lastSeq = s.retiredCount + robCount s + laneCount s.latchID + laneCount s.latchFE

theorem frontOk_iff : FrontOk s ↔ ((latchSeqs s.latchID).Perm
    (List.range' (s.retiredCount + robCount s + 1) (laneCount s.latchID)) ∧ FetchedOk s) :=
  ⟨fun ⟨h1, h2, h3⟩ => ⟨h1, h2, h3⟩, fun ⟨h1, h2, h3⟩ => ⟨h1, h2, h3⟩⟩

/-- As long as nothing enters or leaves between the retired ones and the fetch latch. -/
theorem FetchedOk.of_count (hs : FetchedOk s) (hFE : t.latchFE = s.latchFE) (hlast : t.lastSeq = s.lastSeq)
    (hcount : t.retiredCount + robCount t + laneCount t.latchID = s.retiredCount + robCount s + laneCount s.latchID) :
    FetchedOk t where
  seqs := by rw [hFE, hcount]; exact hs.seqs
  lastSeq := by rw [hlast, hFE, hcount]; exact hs.lastSeq

theorem Issued.laneCount (h : Issued s t j x) (hv : (s.idAt j).valid = true) :
    laneCount t.latchID + 1 = laneCount s.latchID := by
  have hperm := (laneRecords_set_invalid_perm (l := { s.idAt j with valid := false }) hv rfl).length_eq
  rwa [List.length_cons, ← laneCount_eq_length, ← laneCount_eq_length, ← h.latchID] at hperm

/-- What Issue needs to go on, and what an issue keeps. -/
structure IssueOk (s : State) : Prop where
  rob : RobOk s
  decoded : DecodedOk s
  fetched : FetchedOk s

/-- `u` is `s` after `m` issues. -/
structure IssuedBy (s : State) (m : Nat) (u : State) : Prop where
  ok : IssueOk u
  count : robCount u = robCount s + m
  left : laneCount u.latchID + m = laneCount s.latchID
  frame : Stage.issue.Frame s u

theorem IssueOk.mapped (hs : IssueOk s) (r m : Nat) (hm : s.ratAt r = some m) : (s.robAt m).valid = true :=
  (hs.rob.rat.1 r (hs.rob.ratLength ▸ lt_length_of_ratAt hm) m hm).1

theorem IssueOk.issued (hs : IssueOk s) (h : Issued s t j x) (hj : oldestLane s.latchID = some j) : IssueOk t := by
  obtain ⟨hseq, hrest⟩ := h.seq_and_rest hs.decoded hj
  obtain ⟨hv, -⟩ := oldestLane_eq_some hj
  have hdest : ∀ d ∈ x.dest, d < s.cfg.numArchRegs := by
    rw [h.dest]
    exact hs.decoded.dests _ (lane_mem_of_valid hv) hv
  have hcount := h.robCount hs.rob
  have hlanes := h.laneCount hv
  refine ⟨h.robOk hs.rob hseq hdest, ⟨?_, fun l hl hlv => ?_⟩, hs.fetched.of_count (by rw [h.frame]) (by rw [h.frame]) ?_⟩
  · rw [hcount, h.retiredCount]
    exact hrest
  · rw [h.latchID] at hl
    rw [h.cfg]
    rcases List.mem_or_eq_of_mem_set hl with hl | rfl
    · exact hs.decoded.dests l hl hlv
    · cases hlv
  · rw [hcount, h.retiredCount]
    omega

/-- By induction on the issues left: Issue goes on until nothing is decoded, the ROB is full or every lane has had its
turn. -/
theorem IssuedBy.issueUpTo : ∀ (n m : Nat) {u : State}, IssuedBy s m u →
    ∃ t p, issueUpTo n u = .ok () t ∧ IssuedBy s p t ∧ p ≤ m + n ∧
      (p = m + n ∨ robHasSpace t = false ∨ laneCount t.latchID = 0)
  | 0, m, u, h => ⟨u, m, rfl, h, Nat.le_refl _, .inl rfl⟩
  | n + 1, m, u, h => by
    cases hspace : robHasSpace u with
    | false => exact ⟨u, m, by rw [Machine.issueUpTo, hspace]; rfl, h, Nat.le_add_right _ _, .inr (.inl hspace)⟩
    | true =>
      cases hj : oldestLane u.latchID with
      | none =>
        exact ⟨u, m, issueUpTo_idle hj _, h, Nat.le_add_right _ _, .inr (.inr (oldestLane_eq_none.mp hj))⟩
      | some j =>
        obtain ⟨v, hv⟩ := issueOne_ok hspace h.ok.mapped j
        have hone := issued_of_issueOne hv
        obtain ⟨hlane, -⟩ := oldestLane_eq_some hj
        have hcount := hone.robCount h.ok.rob
        have hlanes := hone.laneCount hlane
        have hnext : IssuedBy s (m + 1) v :=
          ⟨h.ok.issued hone hj, by rw [hcount, h.count, Nat.add_assoc], by have := h.left; omega,
            h.frame.trans (Move.issue hj hone).frame⟩
        obtain ⟨t, p, hrun, hp, hle, hstop⟩ := IssuedBy.issueUpTo n (m + 1) hnext
        refine ⟨t, p, ?_, hp, by omega, hstop.imp_left fun he => by omega⟩
        rw [Machine.issueUpTo, hspace, hj]
        show (issueOne j u).bind _ = _
        rw [hv, Res.bind_ok, hrun]

/-- Issue never raises; the ROB takes what it has space for. -/
theorem IssueOk.issue (hs : IssueOk s) (hwidth : s.latchID.length = s.cfg.pipeWidth) :
    ∃ t m, issue s = .ok () t ∧ IssuedBy s m t ∧ robCount t = min (robCount s + laneCount s.latchID) s.cfg.robSize := by
  have hzero : IssuedBy s 0 s := ⟨hs, rfl, rfl, .refl _ s⟩
  obtain ⟨t, m, hrun, h, hle, hstop⟩ := hzero.issueUpTo s.cfg.pipeWidth 0
  refine ⟨t, m, hrun, h, ?_⟩
  have hcount := h.count
  have hleft := h.left
  have hlanes : laneCount s.latchID ≤ s.latchID.length := List.countP_le_length
  have hbound := h.ok.rob.robCount_le
  rw [h.frame.cfg] at hbound
  rcases hstop with hall | hfull | hnone
  · omega
  · have hsize : ¬robCount t < t.cfg.robSize := fun hlt => by
      rw [h.ok.rob.robHasSpace_iff.mpr hlt] at hfull
      cases hfull
    rw [h.frame.cfg] at hsize
    omega
  · omega

theorem length_latchID_of_wellShaped (hshape : wellShaped s = true) : s.latchID.length = s.cfg.pipeWidth :=
  (wellShaped_iff.mp hshape).latchID.length

theorem Inv.issueOk (hinv : Inv s) : IssueOk s :=
  let ⟨_, hfetched⟩ := frontOk_iff.mp hinv.front
  ⟨hinv.robOk, hinv.decodedOk, hfetched⟩

/-- Settles O30: the number of issues, and what they keep. -/
theorem issueFillsTheRobInOrder : Obligations.IssueFillsTheRobInOrder := by
  intro s hinv
  obtain ⟨t, m, hrun, h, hcount⟩ := hinv.issueOk.issue (length_latchID_of_wellShaped hinv.shape)
  have hleft := h.left
  have hmore := h.count
  exact ⟨t, hrun, hcount, by omega, h.ok.rob.window, frontOk_iff.mpr ⟨h.ok.decoded.seqs, h.ok.fetched⟩, h.ok.rob.rat,
    h.frame⟩

end

end Sys2Proof.Machine
end

section
/-! PROOFS. Reset and the invariants (70_reset_and_hazards.md section 1): with every array empty there is nothing for them to
say. -/

namespace Sys2Proof.Machine

section
variable (cfg : Config) (trace : List Word)

theorem idle_resetWith : Idle (State.resetWith cfg trace) := by
  refine ⟨(solo_resetWith cfg trace).wellShaped fun x hx => ?_, rfl, rfl, rfl, rfl,
    fun e he => List.eq_of_mem_replicate he, fun x hx => ?_, fun x hx => ?_, fun l hl => ?_⟩
  · cases hx
  · rw [List.eq_of_mem_replicate hx]; rfl
  · rw [List.eq_of_mem_replicate hx]; rfl
  · rw [State.eq_empty_of_mem_latches_resetWith cfg trace hl]
    exact ⟨rfl, rfl⟩

end

section
variable {s : State}

/-- Nothing is in an idle machine. -/
structure Vacant (s : State) : Prop where
  rob : robCount s = 0
  slots : ∀ u, (s.robAt u).valid = false
  queue : exeqRecords s = []
  latchFE : laneRecords s.latchFE = []
  latchID : laneRecords s.latchID = []
  latchSC : laneRecords s.latchSC = []
  latchEX : laneRecords s.latchEX = []
  rat : ∀ r, s.ratAt r = none

theorem vacant_of_idle (h : Idle s) : Vacant s := by
  obtain ⟨-, -, -, -, -, hrat, hrob, hexeq, hlatches⟩ := h
  have hlatch {latch : List Lane} (hl : ∀ l ∈ latch, l ∈ s.latchFE ++ s.latchID ++ s.latchSC ++ s.latchEX) :
      laneRecords latch = [] := laneRecords_of_all_invalid fun l hm => (hlatches l (hl l hm)).1
  refine ⟨List.countP_eq_zero.mpr fun x hx => by rw [hrob x hx]; decide, fun u => ?_, ?_, hlatch fun l hl => ?_,
    hlatch fun l hl => ?_, hlatch fun l hl => ?_, hlatch fun l hl => ?_, fun r => ?_⟩
  · by_contra hv
    rw [Bool.not_eq_false] at hv
    exact Bool.false_ne_true ((hrob _ (slot_mem_of_valid hv)).symm.trans hv)
  · refine List.eq_nil_iff_forall_not_mem.mpr fun c hc => ?_
    obtain ⟨x, hx, hv, -⟩ := mem_exeqRecords.mp hc
    exact Bool.false_ne_true ((hexeq x hx).symm.trans hv)
  · simp [hl]
  · simp [hl]
  · simp [hl]
  · simp [hl]
  · cases hr : s.ratAt r with
    | none => rfl
    | some g =>
      have hlt := lt_length_of_ratAt hr
      rw [State.ratAt, List.getD_eq_getElem _ _ hlt] at hr
      exact hr.symm.trans (hrat _ (List.getElem_mem hlt))

/-- With nothing in the machine the invariant is what it says of the stream and the run. -/
theorem inv_of_idle (h : Idle s) (hzero : s.lastSeq = 0) (hhalt : s.haltSeq = 0) (hpos : s.tracePos = 0)
    (hflags : FlagsOk s) : Inv s := by
  have hv := vacant_of_idle h
  obtain ⟨hshape, hrun, heos, hretired, hhead, -, -, hexeq, hlatches⟩ := h
  simp only [running, Bool.and_eq_true, Bool.not_eq_true', Option.isNone_iff_eq_none] at hrun
  obtain ⟨hhalted, hfault⟩ := hrun
  have hshaped := wellShaped_iff.mp hshape
  have hcount {latch : List Lane} (hl : laneRecords latch = []) : laneCount latch = 0 := by
    rw [laneCount_eq_length, hl]; rfl
  have hseqs {latch : List Lane} (hl : laneRecords latch = []) : latchSeqs latch = [] := by
    rw [latchSeqs_eq_map, hl]; rfl
  have htravel : travellers s = [] := by rw [travellers, hv.latchSC, hv.queue, hv.latchEX]; rfl
  have hslot {u : Nat} (hu : (s.robAt u).valid = true) : False := Bool.false_ne_true ((hv.slots u).symm.trans hu)
  have hlane {latch : List Lane} (hl : laneRecords latch = []) {p : Inst → Prop} :
      ∀ l ∈ latch, l.valid = true → p l.inst := fun l hm hlv => by
    have hmem := mem_laneRecords.mpr ⟨l, hm, hlv, rfl⟩
    rw [hl] at hmem
    cases hmem
  exact {
    shape := hshape
    noFault := hfault
    window := ⟨by rw [hv.rob, Nat.add_zero, Nat.mod_eq_of_lt hshaped.headLt, hhead],
      fun k _ => by rw [hv.rob]; exact hv.slots _, fun k _ hk => by rw [hv.rob] at hk; omega⟩
    front := by
      simp only [FrontOk, hseqs hv.latchID, hseqs hv.latchFE, hcount hv.latchID, hcount hv.latchFE, hv.rob]
      exact ⟨.refl _, .refl _, by omega⟩
    fresh := ⟨hlane hv.latchFE, hlane hv.latchID⟩
    ownTags := fun u _ hu => (hslot hu).elim
    flags := hflags
    copies := by
      simp only [CopiesOk, htravel]
      exact ⟨fun c hc => (nomatch hc), List.nodup_nil, fun u _ hu => (hslot hu).elim⟩
    countdown := fun x hx hxv => absurd ((hexeq x hx).symm.trans hxv) (by decide)
    tags := fun u _ hu => (hslot hu).elim
    rat := ⟨fun r _ g hg => absurd ((hv.rat r).symm.trans hg) (by simp), fun u _ hu => (hslot hu).elim⟩
    halt := ⟨fun _ => ⟨hhalt, hhalted, .inr hzero⟩, fun he => absurd (heos.symm.trans he) (by decide)⟩
    stream := ⟨by omega, by omega, by omega, fun _ => by omega⟩
    noStall := ⟨fun l hl => (hlatches l (by simp [hl])).2, fun l hl => (hlatches l (by simp [hl])).2,
        fun l hl => (hlatches l (by simp [hl])).2, fun l hl => (hlatches l (by simp [hl])).2⟩ }

/-- Settles O9: the reset state is idle, and its flags are clear. -/
theorem resetSatisfiesInvariants : Obligations.ResetSatisfiesInvariants := by
  refine ⟨?_, rfl⟩
  rintro cfg trace s rfl
  have hidle := idle_resetWith cfg trace
  refine ⟨inv_of_idle hidle rfl rfl rfl fun x hx => ?_, fun _ j hj => ?_, ⟨fun x hx hv => ?_, fun w _ => ?_⟩, hidle⟩
  · rw [List.eq_of_mem_replicate hx]
    exact ⟨fun hv => (nomatch hv), fun _ => ⟨rfl, rfl⟩⟩
  · rw [(vacant_of_idle hidle).rob] at hj
    cases hj
  · rw [List.eq_of_mem_replicate hx] at hv
    cases hv
  · have hnone : (State.resetWith cfg trace).exeq.countP (fun x => x.valid && x.inst.wait == w) = 0 :=
      List.countP_eq_zero.mpr fun x hx => by rw [List.eq_of_mem_replicate hx]; simp [ExeqSlot.empty]
    rw [hnone]
    exact Nat.zero_le _

end

end Sys2Proof.Machine
end

section
/-! PROOFS. What waits and what is waited for (R278, R279): a source that is not ready names an unfinished producer, and every
executing slot without a result has its travelling copy. Every move of the back end keeps both. -/

namespace Sys2Proof.Machine

/-- Pending sources have live producers, and executing slots have travelling copies. -/
structure LiveOk (s : State) : Prop where
  tags : TagsOk s
  covered : ∀ u, (s.robAt u).valid = true → (s.robAt u).exec = true → (s.robAt u).ready = false →
    ∃ c ∈ travellers s, c.drTag = some u

section
variable {st : Stage} {s t : State} {i j k g : Nat} {x : Inst}

theorem Inv.liveOk (hinv : Inv s) : LiveOk s := by
  obtain ⟨-, -, hcovered⟩ := hinv.copies
  exact ⟨hinv.tags, fun u hv => hcovered u (hinv.robOk.slot_lt hv) hv⟩

/-- A pending source stays pending on the same producer, if that is still unfinished. -/
theorem PendingOk.of_slots {u : Nat} {src tag : Option Nat} {ready ready' : Bool} (h : PendingOk s u src tag ready)
    (hready : ready' = false → ready = false) (hcfg : t.cfg = s.cfg)
    (hseq : (t.robAt u).inst.seq = (s.robAt u).inst.seq)
    (hslot : ready' = false → ∀ g, tag = some g → (s.robAt g).valid = true → (s.robAt g).ready = false →
      (t.robAt g).valid = true ∧ (t.robAt g).ready = false ∧ (t.robAt g).inst.seq = (s.robAt g).inst.seq ∧
        (t.robAt g).inst.dest = (s.robAt g).inst.dest) : PendingOk t u src tag ready' := by
  intro hpending
  obtain ⟨hsrc, g, hg, htag, hv, hr, holder, hdest⟩ := h (hready hpending)
  obtain ⟨hv', hr', hq', hd'⟩ := hslot hpending g htag hv hr
  exact ⟨hsrc, g, hcfg ▸ hg, htag, hv', hr', by rwa [hq', hseq], hd'.trans hdest⟩

/-! ## The moves of the back end -/

/-- The retired slot was ready, so nothing waits on it. -/
theorem Retired.liveOk (h : Retired s t) (hs : LiveOk s) : LiveOk t where
  tags u hu hv := by
    obtain ⟨-, hsame⟩ := h.robAt_of_valid hv
    have hslot (g : Nat) (hgv : (s.robAt g).valid = true) (hr : (s.robAt g).ready = false) : t.robAt g = s.robAt g := by
      rw [h.robAt, if_neg]
      rintro rfl
      exact Bool.false_ne_true (hr.symm.trans h.headReady)
    rw [hsame] at hv ⊢
    obtain ⟨h1, h2⟩ := hs.tags u (h.cfg ▸ hu) hv
    exact ⟨h1.of_slots id h.cfg (by rw [hsame]) fun _ g _ hgv hr => by rw [hslot g hgv hr]; exact ⟨hgv, hr, rfl, rfl⟩,
      h2.of_slots id h.cfg (by rw [hsame]) fun _ g _ hgv hr => by rw [hslot g hgv hr]; exact ⟨hgv, hr, rfl, rfl⟩⟩
  covered u hv he hr := by
    obtain ⟨-, hsame⟩ := h.robAt_of_valid hv
    rw [hsame] at hv he hr
    rw [h.travellers]
    exact hs.covered u hv he hr

/-- The broadcast of `g` reaches every source that waits on `g`. -/
theorem WrittenBack.pendingOk (h : WrittenBack s t k g) {u : Nat} {src tag : Option Nat} {ready : Bool}
    (hp : PendingOk s u src tag ready) : PendingOk t u src tag (ready || decide (tag = some g)) := by
  obtain ⟨-, -, -, hseq, -⟩ := h.slot u
  refine hp.of_slots (fun hr => (Bool.or_eq_false_iff.mp hr).1) h.sameRecords.cfg hseq fun hr v htag hv hvr => ?_
  have hne : v ≠ g := by
    rintro rfl
    exact of_decide_eq_false (Bool.or_eq_false_iff.mp hr).2 htag
  obtain ⟨hvalid, -, hready, hq, -, hd, -⟩ := h.slot v
  exact ⟨hvalid.trans hv, (hready hne).trans hvr, hq, hd⟩

theorem WrittenBack.sources (h : WrittenBack s t k g) {u : Nat} (hv : (s.robAt u).valid = true) :
    (t.robAt u).inst = { (s.robAt u).inst with
      src1Ready := (s.robAt u).inst.src1Ready || decide ((s.robAt u).inst.src1Tag = some g)
      src2Ready := (s.robAt u).inst.src2Ready || decide ((s.robAt u).inst.src2Tag = some g) } := by
  have hlive : (if u = g then { s.robAt u with ready := true } else s.robAt u).valid = true := by split <;> exact hv
  rw [h.robAt, wakeSlot, if_pos hlive]
  split <;> rfl

theorem WrittenBack.liveOk (h : WrittenBack s t k g) (hs : LiveOk s) : LiveOk t where
  tags u hu hv := by
    obtain ⟨hvalid, -⟩ := h.slot u
    rw [hvalid] at hv
    obtain ⟨h1, h2⟩ := hs.tags u (h.sameRecords.cfg ▸ hu) hv
    rw [h.sources hv]
    exact ⟨h.pendingOk h1, h.pendingOk h2⟩
  covered u hv he hr := by
    obtain ⟨hvalid, hexec, hready, -⟩ := h.slot u
    have hne : u ≠ g := by
      rintro rfl
      rw [h.robAt, if_pos rfl] at hr
      obtain ⟨-, -, hwake, -⟩ := wakeSlot_fields u { s.robAt u with ready := true }
      rw [hwake] at hr
      cases hr
    obtain ⟨c, hc, htag⟩ := hs.covered u (hvalid ▸ hv) (hexec ▸ he) (hready hne ▸ hr)
    rcases List.mem_cons.mp (h.travellers_perm.symm.subset hc) with rfl | hc
    · exact absurd (Option.some.inj (htag.symm.trans h.tag)) hne
    · exact ⟨c, hc, htag⟩

theorem Carried.liveOk (h : Carried s t) (hs : LiveOk s) : LiveOk t where
  tags := by
    simp only [TagsOk, PendingOk, State.robAt, h.rob, h.sameRecords.cfg]
    exact hs.tags
  covered u hv he hr := by
    rw [State.robAt, h.rob] at hv he hr
    obtain ⟨c, hc, htag⟩ := hs.covered u hv he hr
    obtain ⟨d, hd, hdc⟩ := List.mem_map.mp (h.copies.symm.subset (List.mem_map_of_mem (f := Inst.uncounted) hc))
    exact ⟨d, hd, (congrArg Inst.drTag hdc).trans htag⟩

theorem Scheduled.liveOk (h : Scheduled s t i g) (hrob : RobOk s) (hi : i < s.latchSC.length) (hs : LiveOk s) :
    LiveOk t where
  tags u hu hv := by
    have hslot (v : Nat) : (t.robAt v).valid = (s.robAt v).valid ∧ (t.robAt v).ready = (s.robAt v).ready ∧
        (t.robAt v).inst = (s.robAt v).inst := by
      rw [h.robAt]
      split <;> exact ⟨rfl, rfl, rfl⟩
    obtain ⟨hvalid, -, hinst⟩ := hslot u
    obtain ⟨h1, h2⟩ := hs.tags u (h.sameRecords.cfg ▸ hu) (hvalid ▸ hv)
    have hkeep (v : Nat) (hgv : (s.robAt v).valid = true) (hr : (s.robAt v).ready = false) :
        (t.robAt v).valid = true ∧ (t.robAt v).ready = false ∧ (t.robAt v).inst.seq = (s.robAt v).inst.seq ∧
          (t.robAt v).inst.dest = (s.robAt v).inst.dest := by
      obtain ⟨hv', hr', hinst'⟩ := hslot v
      exact ⟨hv'.trans hgv, hr'.trans hr, by rw [hinst'], by rw [hinst']⟩
    rw [hinst]
    exact ⟨h1.of_slots id h.sameRecords.cfg (by rw [hinst]) fun _ v _ => hkeep v,
      h2.of_slots id h.sameRecords.cfg (by rw [hinst]) fun _ v _ => hkeep v⟩
  covered u hv he hr := by
    have hperm : (travellers t).Perm ((s.robAt g).inst :: travellers s) := by
      have hsame : travellers t =
          travellers (s.setSC i { s.scAt i with valid := true, inst := (s.robAt g).inst }) := by rw [h.frame]; rfl
      rw [hsame]
      exact travellers_setSC_valid_perm hi h.laneFree rfl
    rw [h.robAt] at hv he hr
    split at hv
    next hu =>
      subst hu
      exact ⟨_, hperm.symm.subset List.mem_cons_self, hrob.ownTags u (hrob.slot_lt hv) hv⟩
    next hu =>
      rw [if_neg hu] at he hr
      obtain ⟨c, hc, htag⟩ := hs.covered u hv he hr
      exact ⟨c, hperm.symm.subset (List.mem_cons_of_mem _ hc), htag⟩

/-- What a source of the new record waits on: the mapping of its register, an older unfinished writer of it. -/
theorem Issued.pendingOk (h : Issued s t j x) (hrob : RobOk s) (hseq : x.seq = s.retiredCount + Machine.robCount s + 1)
    (src : Option Nat) : PendingOk t s.robTail src (src.bind s.ratAt)
      (((src.bind s.ratAt).map fun m => (s.robAt m).ready).getD true) := by
  intro hpending
  cases hm : src.bind s.ratAt with
  | none => rw [hm] at hpending; cases hpending
  | some m =>
    rw [hm] at hpending
    obtain ⟨r, hsrc, hr⟩ := Option.bind_eq_some_iff.mp hm
    obtain ⟨hmapped, -⟩ := hrob.rat
    obtain ⟨hv, hd, -⟩ := hmapped r (hrob.ratLength ▸ lt_length_of_ratAt hr) m hr
    obtain ⟨p, hp, -, hmseq⟩ := hrob.place_of_valid hv
    refine ⟨by rw [hsrc]; exact Option.some_ne_none r, m, h.cfg ▸ hrob.slot_lt hv, rfl, ?_⟩
    rw [h.robAt_of_valid hrob hv, h.robAt hrob s.robTail, if_pos rfl, hsrc]
    exact ⟨hv, hpending, by rw [hmseq, hseq]; omega, hd⟩

theorem Issued.liveOk (h : Issued s t j (issuedInst s (s.idAt j).inst)) (hrob : RobOk s)
    (hseq : (issuedInst s (s.idAt j).inst).seq = s.retiredCount + Machine.robCount s + 1) (hs : LiveOk s) : LiveOk t where
  tags u hu hv := by
    rw [h.robAt hrob] at hv
    by_cases hut : u = s.robTail
    · rw [h.robAt hrob, if_pos hut, hut]
      exact ⟨h.pendingOk hrob hseq _, h.pendingOk hrob hseq _⟩
    · rw [if_neg hut] at hv
      have hsame := h.robAt_of_valid hrob hv
      obtain ⟨h1, h2⟩ := hs.tags u (h.cfg ▸ hu) hv
      rw [hsame]
      refine ⟨h1.of_slots id h.cfg (by rw [hsame]) fun _ g _ hgv hr => ?_,
        h2.of_slots id h.cfg (by rw [hsame]) fun _ g _ hgv hr => ?_⟩
      all_goals
        rw [h.robAt_of_valid hrob hgv]
        exact ⟨hgv, hr, rfl, rfl⟩
  covered u hv he hr := by
    rw [h.robAt hrob] at hv he hr
    rw [h.travellers]
    split at hv
    next hut => rw [if_pos hut] at he; cases he
    next hut =>
      rw [if_neg hut] at he hr
      exact hs.covered u hv he hr

theorem LiveOk.congr (hs : LiveOk s) (hcfg : t.cfg = s.cfg) (hrob : t.rob = s.rob)
    (htravel : travellers t = travellers s) : LiveOk t where
  tags := by
    simp only [TagsOk, PendingOk, State.robAt, hrob, hcfg]
    exact hs.tags
  covered := by
    simp only [State.robAt, hrob, htravel]
    exact hs.covered

end

end Sys2Proof.Machine
end

section
/-! PROOFS. Decode (43_driver_frontend.md section 3): the empty decode lanes take the oldest fetched instructions in turn. -/

namespace Sys2Proof.Machine

/-- Decode has taken `s` to `t` when `n` lanes are done. -/
structure DecodedBy (s : State) (n : Nat) (t : State) : Prop where
  frame : Stage.decode.Frame s t
  lengthFE : t.latchFE.length = s.latchFE.length
  lengthID : t.latchID.length = s.latchID.length
  later : ∀ i, n ≤ i → t.idAt i = s.idAt i
  kept : ∀ i, (s.idAt i).valid = true → t.idAt i = s.idAt i
  moved : ∀ i, (s.idAt i).valid = false → (t.idAt i).valid = true →
    (t.idAt i).inst ∈ laneRecords s.latchFE ∧ (∀ c ∈ laneRecords t.latchFE, (t.idAt i).inst.seq ≤ c.seq) ∧
      ∀ j > i, (s.idAt j).valid = false → (t.idAt j).valid = true → (t.idAt i).inst.seq ≤ (t.idAt j).inst.seq
  records : (laneRecords t.latchID ++ laneRecords t.latchFE).Perm (laneRecords s.latchID ++ laneRecords s.latchFE)
  rest : (laneRecords t.latchFE).Sublist (laneRecords s.latchFE)
  stop : (∀ i < n, (t.idAt i).valid = true) ∨ laneCount t.latchFE = 0

section
variable {s t : State} {n i j : Nat}

theorem laneRecords_set_invalid_sublist {latch : List Lane} {k : Nat} {l : Lane} (hl : l.valid = false) :
    (laneRecords (latch.set k l)).Sublist (laneRecords latch) := by
  rw [laneRecords_eq_filterMap, laneRecords_eq_filterMap]
  by_cases hk : k < latch.length
  · rw [List.set_eq_take_append_cons_drop, if_pos hk, List.filterMap_append,
      List.filterMap_cons_none (Lane.record_of_invalid hl), ← List.filterMap_append, ← List.eraseIdx_eq_take_drop_succ]
    exact (List.eraseIdx_sublist latch k).filterMap _
  · rw [List.set_eq_of_length_le (by omega)]

/-- What every lane keeps, Decode keeps, by the number of lanes done. -/
theorem decodeLanes_range_keeps {P : Nat → State → Prop} {N : Nat}
    (hidle : ∀ n u, P n u → ((u.idAt n).valid || (u.idAt n).stall) = true ∨ oldestLane u.latchFE = none → P (n + 1) u)
    (hmove : ∀ n u j, n < N → P n u → (u.idAt n).valid = false → oldestLane u.latchFE = some j →
      P (n + 1) (moveToID n j u)) (hs : P 0 s) : P N (decodeLanes (List.range N) s) := by
  have hrest (m : Nat) : ∀ k u, oldestLane u.latchFE = none → P k u → P (k + m) u := by
    induction m with
    | zero => exact fun _ _ _ hu => hu
    | succ m ih => exact fun k u hnone hu => hidle _ u (ih k u hnone hu) (.inr hnone)
  have hloop (m k : Nat) (hk : k + m = N) : ∀ u, P k u → P N (decodeLanes (List.range' k m) u) := by
    induction m generalizing k with
    | zero => exact fun u hu => hk ▸ hu
    | succ m ih =>
      intro u hu
      rw [List.range'_succ, decodeLanes]
      split
      next hfull => exact ih (k + 1) (by omega) u (hidle k u hu (.inl hfull))
      next hfree =>
        simp only [Bool.or_eq_true, not_or, Bool.not_eq_true] at hfree
        split
        next hnone => exact hk ▸ hrest (m + 1) k u hnone hu
        next j hj => exact ih (k + 1) (by omega) _ (hmove k u j (by omega) hu hfree.1 hj)
  rw [List.range_eq_range']
  exact hloop N 0 (Nat.zero_add N) s hs

theorem stall_getD {latch : List Lane} (h : ∀ l ∈ latch, l.stall = false) (k : Nat) :
    (latch.getD k .empty).stall = false := by
  by_cases hk : k < latch.length
  · rw [List.getD_eq_getElem _ _ hk]
    exact h _ (List.getElem_mem hk)
  · rw [List.getD_eq_default _ _ (by omega)]
    rfl

/-! ## One move -/

theorem idAt_moveToID (hi : i < s.latchID.length) (k : Nat) : (moveToID i j s).idAt k =
    if k = i then { s.idAt i with valid := true, inst := (s.feAt j).inst } else s.idAt k := by
  rw [State.idAt, moveToID]
  show (s.latchID.set i _).getD k .empty = _
  rw [getD_set]
  exact if_congr (and_iff_left hi) rfl rfl

theorem laneRecords_latchID_moveToID (hi : i < s.latchID.length) (hv : (s.idAt i).valid = false) :
    (laneRecords (moveToID i j s).latchID).Perm ((s.feAt j).inst :: laneRecords s.latchID) :=
  laneRecords_set_valid_perm hi hv rfl

theorem laneRecords_latchFE_moveToID (hv : (s.feAt j).valid = true) :
    ((s.feAt j).inst :: laneRecords (moveToID i j s).latchFE).Perm (laneRecords s.latchFE) :=
  laneRecords_set_invalid_perm (l := { s.feAt j with valid := false }) hv rfl

/-- The decode latch and the fetch latch hold consecutive numbers, and so they do after a move. -/
theorem frontOk_moveToID (hs : FrontOk s) (hi : i < s.latchID.length) (hfree : (s.idAt i).valid = false)
    (hj : oldestLane s.latchFE = some j) : FrontOk (moveToID i j s) := by
  obtain ⟨hID, hFE, hlast⟩ := hs
  obtain ⟨hv, hleast⟩ := oldestLane_eq_some hj
  have hput := laneRecords_latchID_moveToID (j := j) hi hfree
  have htake := laneRecords_latchFE_moveToID (i := i) hv
  have hcountID := hput.length_eq
  have hcountFE := htake.length_eq
  rw [List.length_cons, ← laneCount_eq_length, ← laneCount_eq_length] at hcountID hcountFE
  have hseqsFE := htake.map fun c => c.seq
  have hseqsID := hput.map fun c => c.seq
  rw [List.map_cons, ← latchSeqs_eq_map, ← latchSeqs_eq_map] at hseqsFE hseqsID
  have hrange := hseqsFE.trans hFE
  obtain ⟨hlow, -⟩ := List.mem_range'_1.mp (hrange.subset List.mem_cons_self)
  rw [← hcountFE, List.range'_succ] at hrange
  have hhigh := hleast _ (hseqsFE.subset (hrange.symm.subset List.mem_cons_self))
  have hfirst : (s.feAt j).inst.seq = s.retiredCount + robCount s + laneCount s.latchID + 1 := Nat.le_antisymm hhigh hlow
  rw [hfirst] at hrange hseqsID
  have hret : (moveToID i j s).retiredCount = s.retiredCount := rfl
  have hrob : robCount (moveToID i j s) = robCount s := rfl
  refine ⟨?_, ?_, ?_⟩
  · rw [hret, hrob, hcountID, List.range'_1_concat]
    refine hseqsID.trans ((List.Perm.cons _ hID).trans ?_)
    rw [show s.retiredCount + robCount s + laneCount s.latchID + 1 =
      s.retiredCount + robCount s + 1 + laneCount s.latchID by omega]
    exact (List.perm_append_singleton ..).symm
  · rw [hret, hrob, hcountID]
    exact hrange.cons_inv
  · have hseq : (moveToID i j s).lastSeq = s.lastSeq := rfl
    rw [hseq, hret, hrob]
    omega

/-! ## The loop -/

theorem DecodedBy.zero (s : State) : DecodedBy s 0 s where
  frame := .refl _ s
  lengthFE := rfl
  lengthID := rfl
  later _ _ := rfl
  kept _ _ := rfl
  moved i hfree hv := absurd (hfree.symm.trans hv) (by decide)
  records := .refl _
  rest := List.Sublist.refl _
  stop := .inl fun i hi => absurd hi (Nat.not_lt_zero i)

theorem DecodedBy.idle (h : DecodedBy s n t) (hidle : (t.idAt n).valid = true ∨ oldestLane t.latchFE = none) :
    DecodedBy s (n + 1) t where
  __ := h
  later i hi := h.later i (by omega)
  stop := by
    rcases hidle with hv | hnone
    · refine h.stop.imp_left fun hfull i hi => ?_
      rcases Nat.lt_succ_iff_lt_or_eq.mp hi with hi | rfl
      · exact hfull i hi
      · exact hv
    · exact .inr (oldestLane_eq_none.mp hnone)

theorem DecodedBy.move (h : DecodedBy s n t) (hn : n < s.latchID.length) (hfree : (t.idAt n).valid = false)
    (hj : oldestLane t.latchFE = some j) : DecodedBy s (n + 1) (moveToID n j t) := by
  obtain ⟨hv, hleast⟩ := oldestLane_eq_some hj
  have hlt : n < t.latchID.length := h.lengthID.symm ▸ hn
  have hlane := idAt_moveToID (s := t) (j := j) hlt
  have hput := laneRecords_latchID_moveToID (j := j) hlt hfree
  have htake := laneRecords_latchFE_moveToID (i := n) hv
  have hrest : (laneRecords (moveToID n j t).latchFE).Sublist (laneRecords t.latchFE) :=
    laneRecords_set_invalid_sublist rfl
  have hmem : (t.feAt j).inst ∈ laneRecords t.latchFE := htake.subset List.mem_cons_self
  have hoff := h.later n (Nat.le_refl n)
  refine ⟨h.frame.trans rfl, List.length_set.trans h.lengthFE, List.length_set.trans h.lengthID, fun i hi => ?_,
    fun i hi => ?_, fun i hi hiv => ?_, ?_, hrest.trans h.rest, ?_⟩
  · rw [hlane, if_neg (by omega)]
    exact h.later i (by omega)
  · have hne : i ≠ n := by
      rintro rfl
      rw [hoff, hi] at hfree
      cases hfree
    rw [hlane, if_neg hne]
    exact h.kept i hi
  · rw [hlane] at hiv ⊢
    split
    next he =>
      refine ⟨h.rest.subset hmem, fun c hc => hleast _ ?_, fun k hk hkfree hkv => ?_⟩
      · rw [latchSeqs_eq_map]
        exact List.mem_map_of_mem (hrest.subset hc)
      · rw [hlane, if_neg (by omega), h.later k (by omega), hkfree] at hkv
        cases hkv
    next hne =>
      rw [if_neg hne] at hiv
      obtain ⟨hold, hyoung, hsorted⟩ := h.moved i hi hiv
      refine ⟨hold, fun c hc => hyoung c (hrest.subset hc), fun k hk hkfree hkv => ?_⟩
      rw [hlane] at hkv ⊢
      split
      next => exact hyoung _ hmem
      next hkn =>
        rw [if_neg hkn] at hkv
        exact hsorted k hk hkfree hkv
  · refine ((hput.append_right _).trans ?_).trans h.records
    rw [List.cons_append]
    exact List.perm_middle.symm.trans (htake.append_left _)
  · have hnone : laneCount t.latchFE ≠ 0 := by
      rw [laneCount_eq_length]
      exact (List.length_pos_of_mem hmem).ne'
    have hfull := h.stop.resolve_right hnone
    refine .inl fun i hi => ?_
    rw [hlane]
    split
    next => rfl
    next hne => exact hfull i (by omega)

/-- The whole of Decode, and the order of the front end with it. -/
theorem decodedBy_decode (hlength : s.latchID.length = s.cfg.pipeWidth) (hstall : ∀ l ∈ s.latchID, l.stall = false) :
    DecodedBy s s.cfg.pipeWidth (decode s) ∧ (FrontOk s → FrontOk (decode s)) := by
  refine decodeLanes_range_keeps (P := fun n u => DecodedBy s n u ∧ (FrontOk s → FrontOk u)) (fun n u hu hidle => ?_)
    (fun n u j hn hu hfree hj => ?_) ⟨.zero s, id⟩
  · obtain ⟨hu, hfront⟩ := hu
    refine ⟨hu.idle (hidle.imp_left fun hfull => ?_), hfront⟩
    have hlane : (u.idAt n).stall = false := by
      rw [hu.later n (Nat.le_refl n)]
      exact stall_getD hstall n
    rwa [hlane, Bool.or_false] at hfull
  · obtain ⟨hu, hfront⟩ := hu
    have hlt : n < s.latchID.length := hlength.symm ▸ hn
    exact ⟨hu.move hlt hfree hj, fun hs => frontOk_moveToID (hfront hs) (hu.lengthID.symm ▸ hlt) hfree hj⟩

theorem DecodedBy.count (h : DecodedBy s n t) :
    laneCount t.latchID + laneCount t.latchFE = laneCount s.latchID + laneCount s.latchFE := by
  have hlength := h.records.length_eq
  simpa only [List.length_append, ← laneCount_eq_length] using hlength

theorem laneCount_eq_of_full {latch : List Lane} (h : ∀ i < latch.length, (latch.getD i .empty).valid = true) :
    laneCount latch = latch.length := List.countP_eq_length.mpr (forall_lane_iff.mpr h)

theorem DecodedBy.laneCount_ID (h : DecodedBy s s.cfg.pipeWidth t) (hlength : s.latchID.length = s.cfg.pipeWidth) :
    laneCount t.latchID = min s.cfg.pipeWidth (laneCount s.latchID + laneCount s.latchFE) := by
  have hcount := h.count
  have hle : laneCount t.latchID ≤ t.latchID.length := List.countP_le_length
  have hwidth := h.lengthID
  rcases h.stop with hfull | hnone
  · have hall := laneCount_eq_of_full (latch := t.latchID) fun i hi => hfull i (by omega)
    omega
  · omega

/-- Settles O31: the loop's account, read when every lane is done. -/
theorem decodeMovesTheOldestFetched : Obligations.DecodeMovesTheOldestFetched := by
  rintro s - hlength hstall _ rfl
  obtain ⟨h, -⟩ := decodedBy_decode hlength hstall
  refine ⟨h.laneCount_ID hlength, h.count, ?_, h.kept, fun i hi hiv => ?_, h.frame⟩
  · have hseqs := h.records.map fun c => c.seq
    simpa only [List.map_append, ← latchSeqs_eq_map] using hseqs
  · obtain ⟨hold, hyoung, hsorted⟩ := h.moved i hi hiv
    exact ⟨mem_laneRecords.mp hold, fun l hl hv => hyoung _ (mem_laneRecords.mpr ⟨l, hl, hv, rfl⟩), hsorted⟩

end

end Sys2Proof.Machine
end

section
/-! PROOFS. Fetch (43_driver_frontend.md section 2): the empty fetch lanes take the items of the stream in turn, each record
under the next number, until an item is no record. -/

namespace Sys2Proof.Machine

/-- The item of a tick's read number `p`, counted from 0: what the port holds, and then the stream's (R170). -/
def itemAt (first : TraceItem) (s : State) (p : Nat) : TraceItem :=
  if p = 0 then first else nextItem { s with tracePos := s.tracePos + p }

/-- The record that read number `p` fetches. -/
def newInst (first : TraceItem) (s : State) (p : Nat) : Inst :=
  match itemAt first s p with
  | .record i => fetchedInst (s.lastSeq + p + 1) i
  | _ => .blank

/-- The state after an item that is no record: the input has ended, and a malformed word is consumed (R171, R172). -/
def endAt (item : TraceItem) (s : State) : State :=
  { s with
    eosSeen := true
    haltSeq := s.lastSeq
    halted := s.halted || s.lastSeq == 0
    tracePos := s.tracePos + if item = .malformed then 1 else 0 }

/-- Fetch has taken `s` to `t` when `n` lanes are done and `m` records read, and the input has not ended. -/
structure FilledBy (first : TraceItem) (s : State) (n m : Nat) (t : State) : Prop where
  frame : t = { s with latchFE := t.latchFE, lastSeq := s.lastSeq + m, tracePos := s.tracePos + m }
  length : t.latchFE.length = s.latchFE.length
  kept : ∀ i, (s.feAt i).valid = true ∨ n ≤ i → t.feAt i = s.feAt i
  full : ∀ i < n, (t.feAt i).valid = true
  items : ∀ p < m, ∃ i, itemAt first s p = .record i
  filled : ∀ i, (s.feAt i).valid = false → (t.feAt i).valid = true →
    ∃ p < m, t.feAt i = { s.feAt i with valid := true, inst := newInst first s p }
  placed : ∀ p < m, ∃ i < n, t.feAt i = { s.feAt i with valid := true, inst := newInst first s p }
  sorted : ∀ i j, i < j → (s.feAt i).valid = false → (s.feAt j).valid = false → (t.feAt i).valid = true →
    (t.feAt j).valid = true → (t.feAt i).inst.seq < (t.feAt j).inst.seq
  records : (laneRecords t.latchFE).Perm (laneRecords s.latchFE ++ (List.range m).map (newInst first s))

/-- Fetch has ended the input at lane `n`, after `m` records. -/
structure EndedBy (first : TraceItem) (s : State) (n m : Nat) (v t : State) : Prop where
  filled : FilledBy first s n m v
  free : (v.feAt n).valid = false
  item : ∀ i, itemAt first s m ≠ .record i
  eq : t = endAt (itemAt first s m) v

section
variable {first : TraceItem} {s t u v : State} {n m k : Nat}

theorem newInst_of_record {p : Nat} {i : Instr} (h : itemAt first s p = .record i) :
    newInst first s p = fetchedInst (s.lastSeq + p + 1) i := by
  rw [newInst, h]

theorem fetchInto_of_not_record {item : TraceItem} (hfree : (s.feAt k).valid = false) (hitem : ∀ i, item ≠ .record i) :
    fetchInto k item s = endAt item s := by
  cases item with
  | record i => exact absurd rfl (hitem i)
  | malformed => exact endInput_of_free (s := { s with tracePos := s.tracePos + 1 }) hfree
  | endOfStream => exact endInput_of_free hfree

theorem FilledBy.zero (first : TraceItem) (s : State) : FilledBy first s 0 0 s where
  frame := rfl
  length := rfl
  kept _ _ := rfl
  full i hi := absurd hi (Nat.not_lt_zero i)
  items p hp := absurd hp (Nat.not_lt_zero p)
  filled i hfree hv := absurd (hfree.symm.trans hv) (by decide)
  placed p hp := absurd hp (Nat.not_lt_zero p)
  sorted i j _ hfree _ hv := absurd (hfree.symm.trans hv) (by decide)
  records := by rw [List.range_zero, List.map_nil, List.append_nil]

section
variable (h : FilledBy first s n m t)
include h

theorem FilledBy.lastSeq : t.lastSeq = s.lastSeq + m := by rw [h.frame]

theorem FilledBy.tracePos : t.tracePos = s.tracePos + m := by rw [h.frame]

theorem FilledBy.eosSeen : t.eosSeen = s.eosSeen := by rw [h.frame]

theorem FilledBy.seq_newInst {p : Nat} (hp : p < m) : (newInst first s p).seq = s.lastSeq + p + 1 := by
  obtain ⟨i, hi⟩ := h.items p hp
  rw [newInst_of_record hi]
  rfl

theorem FilledBy.nextItem (hm : m ≠ 0) : nextItem t = itemAt first s m := by
  rw [itemAt, if_neg hm, h.frame]
  rfl

/-- A lane that holds an instruction is passed over. -/
theorem FilledBy.pass (hv : (t.feAt n).valid = true) : FilledBy first s (n + 1) m t where
  __ := h
  kept i hi := h.kept i (hi.imp_right fun hi => by omega)
  full i hi := by
    rcases Nat.lt_succ_iff_lt_or_eq.mp hi with hi | rfl
    · exact h.full i hi
    · exact hv
  placed p hp :=
    let ⟨i, hi, hlane⟩ := h.placed p hp
    ⟨i, by omega, hlane⟩

/-- A free lane takes a record. -/
theorem FilledBy.read (hn : n < s.latchFE.length) (hfree : (t.feAt n).valid = false) {i : Instr}
    (hitem : itemAt first s m = .record i) : FilledBy first s (n + 1) (m + 1) (fetchInto n (.record i) t) := by
  have hlt : n < t.latchFE.length := h.length.symm ▸ hn
  have hold : t.feAt n = s.feAt n := h.kept n (.inr (Nat.le_refl n))
  have hnew : fetchedInst (t.lastSeq + 1) i = newInst first s m := by
    rw [newInst_of_record hitem, h.lastSeq]
  have hlane (j : Nat) : (fetchInto n (.record i) t).feAt j =
      if j = n then { s.feAt n with valid := true, inst := newInst first s m } else t.feAt j := by
    by_cases hj : j = n
    · subst hj
      rw [if_pos rfl, fetchInto, hnew, hold]
      show (t.latchFE.set j _).getD j .empty = _
      rw [getD_set, if_pos ⟨rfl, hlt⟩]
    · rw [if_neg hj, feAt_fetchInto_of_ne hj]
  have hitems : ∀ p < m + 1, ∃ i, itemAt first s p = .record i := fun p hp => by
    rcases Nat.lt_succ_iff_lt_or_eq.mp hp with hp | rfl
    · exact h.items p hp
    · exact ⟨i, hitem⟩
  refine ⟨?_, ?_, fun j hj => ?_, fun j hj => ?_, hitems, fun j hj hjv => ?_, fun p hp => ?_,
    fun j k hjk hj hk hjv hkv => ?_, ?_⟩
  · rw [fetchInto, h.frame]
    rfl
  · rw [fetchInto]
    exact List.length_set.trans h.length
  · have hne : j ≠ n := by
      rintro rfl
      rcases hj with hv | hle
      · exact Bool.false_ne_true ((hold ▸ hfree).symm.trans hv)
      · omega
    rw [hlane, if_neg hne]
    exact h.kept j (hj.imp_right fun hle => by omega)
  · rw [hlane]
    split
    next => rfl
    next hne => exact h.full j (by omega)
  · rw [hlane] at hjv ⊢
    split
    next he => exact ⟨m, Nat.lt_succ_self m, by rw [he]⟩
    next hne =>
      rw [if_neg hne] at hjv
      obtain ⟨p, hp, heq⟩ := h.filled j hj hjv
      exact ⟨p, by omega, heq⟩
  · rcases Nat.lt_succ_iff_lt_or_eq.mp hp with hp | rfl
    · obtain ⟨j, hj, heq⟩ := h.placed p hp
      refine ⟨j, by omega, ?_⟩
      rw [hlane, if_neg (by omega), heq]
    · exact ⟨n, Nat.lt_succ_self n, by rw [hlane, if_pos rfl]⟩
  · have hseq : (newInst first s m).seq = s.lastSeq + m + 1 := by rw [newInst_of_record hitem]; rfl
    have hkn : k ≤ n := by
      by_contra hgt
      rw [hlane, if_neg (by omega), h.kept k (.inr (by omega)), hk] at hkv
      cases hkv
    rw [hlane, if_neg (by omega)] at hjv ⊢
    rw [hlane] at hkv ⊢
    split
    next =>
      obtain ⟨p, hp, heq⟩ := h.filled j hj hjv
      rw [heq, hseq, h.seq_newInst hp]
      omega
    next hne =>
      rw [if_neg hne] at hkv
      exact h.sorted j k hjk hj hk hjv hkv
  · have hput : (laneRecords (fetchInto n (.record i) t).latchFE).Perm (newInst first s m :: laneRecords t.latchFE) := by
      rw [← hnew]
      exact laneRecords_set_valid_perm hlt hfree rfl
    rw [List.range_succ, List.map_append, ← List.append_assoc]
    exact hput.trans ((List.perm_append_singleton ..).symm.trans (h.records.append_right _))

end

/-! ## The loop -/

/-- Fetch fills every lane from where it stands, or it ends the input. -/
theorem FilledBy.fetchLanes (heos : s.eosSeen = false) (hstall : ∀ l ∈ s.latchFE, l.stall = false) :
    ∀ (l n m : Nat) {u : State}, FilledBy first s n m u → n + l ≤ s.latchFE.length →
      (∃ m', FilledBy first s (n + l) m'
        (Machine.fetchLanes (List.range' n l) (if m = 0 then some first else none) u)) ∨
      ∃ n' < n + l, ∃ m' v, EndedBy first s n' m' v
        (Machine.fetchLanes (List.range' n l) (if m = 0 then some first else none) u)
  | 0, n, m, u, h, _ => .inl ⟨m, h⟩
  | l + 1, n, m, u, h, hle => by
    have hnext : n + (l + 1) = n + 1 + l := by omega
    have hnostall : (u.feAt n).stall = false := by
      rw [h.kept n (.inr (Nat.le_refl n))]
      exact stall_getD hstall n
    rw [List.range'_succ, Machine.fetchLanes, h.eosSeen, heos, hnostall, Bool.or_false, hnext]
    cases hv : (u.feAt n).valid with
    | true => exact FilledBy.fetchLanes heos hstall l (n + 1) m (h.pass hv) (by omega)
    | false =>
      have hitem : (if m = 0 then some first else none).getD (Machine.nextItem u) = itemAt first s m := by
        by_cases hm : m = 0
        · rw [if_pos hm, itemAt, if_pos hm]; rfl
        · rw [if_neg hm, ← h.nextItem hm]; rfl
      simp only [Bool.false_eq_true, if_false, hitem]
      by_cases hrecord : ∃ i, itemAt first s m = .record i
      · obtain ⟨i, hi⟩ := hrecord
        rw [hi]
        exact FilledBy.fetchLanes heos hstall l (n + 1) (m + 1) (h.read (by omega) hv hi) (by omega)
      · have hnot (i : Instr) : itemAt first s m ≠ .record i := fun hi => hrecord ⟨i, hi⟩
        rw [fetchInto_of_not_record hv hnot, fetchLanes_ended rfl]
        exact .inr ⟨n, by omega, m, u, h, hv, hnot, rfl⟩

theorem fetch_cases (first : TraceItem) (hlength : s.latchFE.length = s.cfg.pipeWidth)
    (hstall : ∀ l ∈ s.latchFE, l.stall = false) (heos : s.eosSeen = false) :
    (∃ m, FilledBy first s s.cfg.pipeWidth m (fetch first s)) ∨
      ∃ n < s.cfg.pipeWidth, ∃ m v, EndedBy first s n m v (fetch first s) := by
  have hloop := (FilledBy.zero first s).fetchLanes heos hstall s.cfg.pipeWidth 0 0 (by omega)
  rw [if_pos rfl, Nat.zero_add, ← List.range_eq_range'] at hloop
  exact hloop

/-- With every lane full Fetch reads nothing. -/
theorem fetch_of_full (first : TraceItem) (hlength : s.latchFE.length = s.cfg.pipeWidth)
    (hfull : ∀ l ∈ s.latchFE, l.valid = true) : fetch first s = s := by
  have hlane : ∀ k ∈ List.range s.cfg.pipeWidth, (s.feAt k).valid = true := fun k hk => by
    rw [List.mem_range, ← hlength] at hk
    rw [State.feAt, List.getD_eq_getElem _ _ hk]
    exact hfull _ (List.getElem_mem hk)
  have hloop (ks : List Nat) (hks : ∀ k ∈ ks, (s.feAt k).valid = true) : fetchLanes ks (some first) s = s := by
    induction ks with
    | nil => rfl
    | cons k ks ih =>
      rw [fetchLanes, hks k List.mem_cons_self, Bool.true_or, if_pos rfl, ih fun j hj => hks j (List.mem_cons_of_mem _ hj)]
      exact ite_self s
  exact hloop _ hlane

end

end Sys2Proof.Machine
end

section
/-! PROOFS. A tick from a state with the invariant (43_driver_frontend.md R166): Commit and Writeback go on; Execute goes on
where the EXEQ has room, and then so do Schedule, Issue and Decode. What holds after each stage. -/

namespace Sys2Proof.Machine

/-- What the stages up to Issue rely on and keep. -/
structure CoreOk (s : State) : Prop where
  backend : BackendOk s
  fetched : FetchedOk s
  live : LiveOk s

/-- The cycle is counted. -/
def counted (s : State) : State := { s with cycleCount := s.cycleCount + 1 }

/-- Commit and Writeback have taken the counted `s` to `s1` and `s2`, retiring `p`. -/
structure Early (s s1 s2 : State) (p : Nat) : Prop where
  commit : commit (counted s) = .ok () s1
  retired : RetiredBy (counted s) p s1
  stop : p = s.cfg.pipeWidth ∨ robHeadIsReady s1 = false
  core1 : CoreOk s1
  writeback : writeback s1 = .ok () s2
  written : WrittenUpTo s1 s1.cfg.wbWidth s2
  core2 : CoreOk s2

/-- Execute, Schedule, Issue and Decode have taken `s2` to `s3`, `s4`, `s5` and `decode s5`, moving the records `moved` to the
execute latch and issuing `m`. -/
structure Late (s2 s3 s4 s5 : State) (moved : List Inst) (m : Nat) : Prop where
  execute : execute s2 = .ok () s3
  executed : Executed s2 s3 moved
  core3 : CoreOk s3
  schedule : schedule s3 = .ok () s4
  scheduled : ScheduledUpTo s3 s3.cfg.pipeWidth s4
  core4 : CoreOk s4
  issue : issue s4 = .ok () s5
  issuedBy : IssuedBy s4 m s5
  count : robCount s5 = min (robCount s4 + laneCount s4.latchID) s4.cfg.robSize
  core5 : CoreOk s5
  decoded : DecodedBy s5 s5.cfg.pipeWidth (decode s5)
  front : FrontOk (decode s5)

section
variable {s t : State} {i j k g : Nat} {x : Inst}

/-! ## What the moves keep -/

theorem CoreOk.issueOk (hs : CoreOk s) : IssueOk s := ⟨hs.backend.rob, hs.backend.decoded, hs.fetched⟩

theorem CoreOk.frontOk (hs : CoreOk s) : FrontOk s := frontOk_iff.mpr ⟨hs.backend.decoded.seqs, hs.fetched⟩

theorem Retired.coreOk (h : Retired s t) (hs : CoreOk s) : CoreOk t where
  backend := h.backendOk hs.backend
  fetched := hs.fetched.of_count (by rw [h.frame]) (by rw [h.frame]) <| by
    have hcount := h.robCount
    rw [h.retiredCount, h.latchID]
    omega
  live := h.liveOk hs.live

theorem FetchedOk.of_sameRecords (hs : FetchedOk s) (h : SameRecords s t) (hFE : t.latchFE = s.latchFE)
    (hID : t.latchID = s.latchID) (hlast : t.lastSeq = s.lastSeq) : FetchedOk t :=
  hs.of_count hFE hlast (by rw [h.retiredCount, h.robCount, hID])

theorem WrittenBack.coreOk (h : WrittenBack s t k g) (hs : CoreOk s) : CoreOk t where
  backend := h.backendOk hs.backend
  fetched := hs.fetched.of_sameRecords h.sameRecords (by rw [h.frame]) (by rw [h.frame]) (by rw [h.frame])
  live := h.liveOk hs.live

theorem Carried.coreOk (h : Carried s t) (hs : CoreOk s) : CoreOk t where
  backend := h.backendOk hs.backend
  fetched := hs.fetched.of_sameRecords h.sameRecords (by rw [h.frame]) (by rw [h.frame]) (by rw [h.frame])
  live := h.liveOk hs.live

theorem Scheduled.coreOk (h : Scheduled s t i g) (hi : i < s.cfg.pipeWidth) (hs : CoreOk s) : CoreOk t where
  backend := h.backendOk hs.backend hi
  fetched := hs.fetched.of_sameRecords h.sameRecords (by rw [h.frame]) (by rw [h.frame]) (by rw [h.frame])
  live := h.liveOk hs.backend.rob (hs.backend.widths.latchSC.symm ▸ hi) hs.live

theorem Issued.coreOk (h : Issued s t j (issuedInst s (s.idAt j).inst)) (hj : oldestLane s.latchID = some j)
    (hs : CoreOk s) : CoreOk t where
  backend := h.backendOk hs.backend hj
  fetched := (hs.issueOk.issued h hj).fetched
  live :=
    let ⟨hseq, _⟩ := h.seq_and_rest hs.backend.decoded hj
    h.liveOk hs.backend.rob hseq hs.live

/-! ## What the stages keep -/

theorem CoreOk.commit (hs : CoreOk s) (h : commit s = .ok () t) : CoreOk t :=
  commit_keeps (fun _ hu => hu.backend.rob) (fun _ _ hr hu => hr.coreOk hu) hs h

theorem CoreOk.writeback (hs : CoreOk s) (h : writeback s = .ok () t) : CoreOk t :=
  writeback_keeps (fun _ _ _ _ hw hu => hw.coreOk hu) hs h

theorem CoreOk.schedule (hs : CoreOk s) (h : schedule s = .ok () t) : CoreOk t := by
  refine And.left (schedule_keeps (P := fun _ u => CoreOk u ∧ u.cfg = s.cfg) (fun _ _ hu => hu)
    (fun i u v g hi hg hu => ?_) ⟨hs, rfl⟩ h)
  obtain ⟨hu, hcfg⟩ := hu
  exact ⟨hg.coreOk (hcfg ▸ hi) hu, hg.sameRecords.cfg.trans hcfg⟩

theorem path_issue (h : issue s = .ok () t) : Path .issue s t := by
  have hreach := reaches_issueUpTo s.cfg.pipeWidth s
  rwa [show issueUpTo s.cfg.pipeWidth s = .ok () t from h] at hreach

theorem CoreOk.issue (hs : CoreOk s) (h : issue s = .ok () t) : CoreOk t := by
  refine (path_issue h).keeps (fun u v hmove hu => ?_) hs
  cases hmove with
  | issue hj hone => exact hone.coreOk hj hu

theorem Inv.coreOk_counted (hinv : Inv s) : CoreOk (counted s) where
  backend := hinv.backendOk_counted
  fetched :=
    let ⟨_, h⟩ := frontOk_iff.mp hinv.front
    ⟨h.seqs, h.lastSeq⟩
  live := hinv.liveOk.congr rfl rfl rfl

/-! ## The tick -/

theorem Inv.early (hinv : Inv s) : ∃ s1 s2 p, Early s s1 s2 p := by
  have hcore := hinv.coreOk_counted
  obtain ⟨s1, p, hcommit, hretired, -, hstop⟩ := hcore.backend.rob.commit
  have hcore1 := hcore.commit hcommit
  obtain ⟨s2, hwriteback, hwritten⟩ := writeback_ok hcore1.backend.widths.latchEX fun l hl hv => by
    obtain ⟨g, -, htag, hgv, -⟩ := hcore1.backend.exec.copies l.inst
      (List.mem_append_right _ (mem_laneRecords.mpr ⟨l, hl, hv, rfl⟩))
    exact ⟨g, htag, hgv⟩
  exact ⟨s1, s2, p, hcommit, hretired, hstop, hcore1, hwriteback, hwritten, hcore1.writeback hwriteback⟩

section
variable {s1 s2 s3 s4 s5 : State} {p m : Nat} {moved : List Inst}

theorem Early.cfg (h : Early s s1 s2 p) : s2.cfg = s.cfg := h.written.frame.cfg.trans h.retired.frame.cfg

theorem Early.latchEX (h : Early s s1 s2 p) : ∀ l ∈ s2.latchEX, l.valid = false :=
  forall_lane_iff.mpr fun i _ => writeback_empties_latchEX h.core1.backend.widths.latchEX h.writeback i

theorem Early.frame (h : Early s s1 s2 p) : s2 = { s with
    cycleCount := s.cycleCount + 1, rat := s2.rat, rob := s2.rob, robHead := s2.robHead, retiredCount := s2.retiredCount
    halted := s2.halted, latchEX := s2.latchEX } := by
  have h1 := h.retired.frame
  have h2 := h.written.frame
  unfold Stage.Frame at h1 h2
  rw [h2, h1]
  rfl

/-- Commit and Writeback leave what Execute is to meet. -/
theorem Early.demand (h : Early s s1 s2 p) : exeqDemand s2 = exeqDemand s ∧ exeqFree s2 = exeqFree s := by
  rw [h.frame]
  exact ⟨rfl, rfl⟩

theorem Early.late (h : Early s s1 s2 p) (hstall : ∀ l ∈ s.latchID, l.stall = false)
    (hlength : s.latchID.length = s.cfg.pipeWidth) (hrun : execute s2 = .ok () s3) (hexecuted : Executed s2 s3 moved) :
    ∃ s4 s5 m, Late s2 s3 s4 s5 moved m := by
  have hcore3 := (carried_execute hrun).coreOk h.core2
  obtain ⟨s4, hschedule⟩ := schedule_ok s3
  have hscheduled := scheduledUpTo_of_schedule hcore3.backend.widths.latchSC hschedule
  have hcore4 := hcore3.schedule hschedule
  have hID : s4.latchID = s.latchID := by
    have h3 := hexecuted.frame
    unfold Stage.Frame at h3
    rw [hscheduled.frame, h3, h.frame]
  have hcfg : s4.cfg = s.cfg := by rw [schedule_cfg hschedule, execute_cfg hrun, h.cfg]
  have hlength4 : s4.latchID.length = s4.cfg.pipeWidth := by rw [hID, hlength, hcfg]
  obtain ⟨s5, m, hissue, hissued, hcount⟩ := hcore4.issueOk.issue hlength4
  have hcore5 := hcore4.issue hissue
  have hsame := (path_issue hissue).keeps (P := fun u => stalls u.latchID = stalls s4.latchID ∧ u.cfg = s4.cfg)
    (fun u v hmove hu => ⟨hmove.sameFixed.2.2.2.1.trans hu.1, hmove.frame.cfg.trans hu.2⟩) ⟨rfl, rfl⟩
  obtain ⟨hstalls, hcfg5⟩ := hsame
  have hstall5 : ∀ l ∈ s5.latchID, l.stall = false := fun l hl => by
    have hmem : l.stall ∈ stalls s5.latchID := List.mem_map_of_mem hl
    rw [hstalls, hID] at hmem
    obtain ⟨l', hl', he⟩ := List.mem_map.mp hmem
    rw [← he]
    exact hstall l' hl'
  have hlength5 : s5.latchID.length = s5.cfg.pipeWidth := by
    have hlen := congrArg List.length hstalls
    rw [stalls, stalls, List.length_map, List.length_map] at hlen
    rw [hlen, hlength4, hcfg5]
  obtain ⟨hdecoded, hfront⟩ := decodedBy_decode hlength5 hstall5
  exact ⟨s4, s5, m, hrun, hexecuted, hcore3, hschedule, hscheduled, hcore4, hissue, hissued, hcount, hcore5, hdecoded,
    hfront hcore5.frontOk⟩

theorem Early.beforeFetch (h : Early s s1 s2 p) (h' : Late s2 s3 s4 s5 moved m) :
    beforeFetch s = .ok () (decode s5) := beforeFetch_ok h.commit h.writeback h'.execute h'.schedule h'.issue

theorem Early.beforeFetch_raised (h : Early s s1 s2 p) (hrun : execute s2 = .raised s3) :
    Machine.beforeFetch s = .raised s3 := by
  have hcommit : Machine.commit { s with cycleCount := s.cycleCount + 1 } = .ok () s1 := h.commit
  rw [Machine.beforeFetch, hcommit, Res.bind_ok, h.writeback, Res.bind_ok, hrun, Res.bind_raised]

end

/-- A tick of a running machine with the invariant: it passes every stage, or it overflows in Execute. -/
theorem Inv.tick_cases (hinv : Inv s) (hhalted : s.halted = false) :
    ∃ s1 s2 p, Early s s1 s2 p ∧
      ((exeqDemand s ≤ exeqFree s ∧ ∃ s3 s4 s5 moved m, Late s2 s3 s4 s5 moved m ∧
          ∀ item, tick item s = fetch item (decode s5)) ∨
        (exeqFree s < exeqDemand s ∧ ∃ s3, Overflowed s2 s3 ∧ ∀ item, tick item s = s3)) := by
  obtain ⟨s1, s2, p, hearly⟩ := hinv.early
  have hrun : running s = true := by rw [running, hhalted, hinv.noFault]; rfl
  obtain ⟨hdemand, hfree⟩ := hearly.demand
  have hshaped := wellShaped_iff.mp hinv.shape
  obtain ⟨-, hstall, -⟩ := hinv.noStall
  refine ⟨s1, s2, p, hearly, ?_⟩
  rw [← hdemand, ← hfree]
  refine (execute_cases hearly.core2.backend.widths hearly.latchEX).imp ?_ ?_
  · rintro ⟨hroom, s3, moved, hs3, hexecuted⟩
    obtain ⟨s4, s5, m, hlate⟩ := hearly.late hstall hshaped.latchID.length hs3 hexecuted
    refine ⟨hroom, s3, s4, s5, moved, m, hlate, fun item => ?_⟩
    rw [tick, if_pos hrun, hearly.beforeFetch hlate]
    rfl
  · rintro ⟨hover, s3, hs3, hoverflowed⟩
    refine ⟨hover, s3, hoverflowed, fun item => ?_⟩
    rw [tick, if_pos hrun, hearly.beforeFetch_raised hs3]
    rfl

end

end Sys2Proof.Machine
end

section
/-! PROOFS. What Fetch meets at the end of a tick that does not overflow: the stream's registers as they were, the front end in
order, and a free lane exactly where a place has freed up (43_driver_frontend.md R173, R176). -/

namespace Sys2Proof.Machine

/-- `u` is what the stages before Fetch make of `s`, as far as Fetch and the run state are concerned. -/
structure AtFetch (s u : State) : Prop where
  frame : u = { s with
    cycleCount := s.cycleCount + 1, rat := u.rat, rob := u.rob, robHead := u.robHead, robTail := u.robTail
    retiredCount := u.retiredCount, halted := u.halted, exeq := u.exeq, latchSC := u.latchSC, latchEX := u.latchEX
    latchID := u.latchID, latchFE := u.latchFE }
  lengthFE : u.latchFE.length = s.cfg.pipeWidth
  stallFE : ∀ l ∈ u.latchFE, l.stall = false
  records : (laneRecords u.latchFE).Sublist (laneRecords s.latchFE)
  front : FrontOk u
  behind : s.eosSeen = false → s.lastSeq = 0 ∨ u.retiredCount < s.lastSeq
  halted : u.halted = decide (s.eosSeen = true ∧ u.retiredCount = s.lastSeq)
  room : (∃ l ∈ u.latchFE, l.valid = false) ↔ fetchRoom s = true

section
variable {s s1 s2 s3 s4 s5 : State} {p m : Nat} {moved : List Inst}

theorem any_invalid_iff {latch : List Lane} :
    latch.any (fun l => !l.valid) = true ↔ laneCount latch < latch.length := by
  rw [List.any_eq_true]
  constructor
  · rintro ⟨l, hl, hv⟩
    refine lt_of_le_of_ne List.countP_le_length fun he => ?_
    rw [List.countP_eq_length.mp he l hl] at hv
    cases hv
  · intro hlt
    by_contra hnone
    refine hlt.ne (List.countP_eq_length.mpr fun l hl => ?_)
    by_contra hv
    exact hnone ⟨l, hl, by simpa using hv⟩

/-- Nothing retires exactly where the head is not ready. -/
theorem RetiredBy.pos_iff (hs : RobOk s) (h : RetiredBy s p s1) (hstop : p = s.cfg.pipeWidth ∨ robHeadIsReady s1 = false) :
    0 < p ↔ robHeadIsReady s = true := by
  have hready := hs.retiredBy_zero.head_ready_iff hs
  have hcount := h.count
  constructor
  · intro hp
    exact hready.mpr ⟨by omega, h.ready 0 hp⟩
  · intro hr
    by_contra hp
    obtain rfl : p = 0 := by omega
    have hwidth := s.cfg.one_le_pipeWidth
    have hnot := hstop.resolve_left (by omega)
    exact absurd ((h.head_ready_iff hs).mpr (hready.mp hr)) (by rw [hnot]; decide)

theorem Early.retiredCount (h : Early s s1 s2 p) : s2.retiredCount = s.retiredCount + p :=
  (h.written.frame.retiredCount (by simp)).trans h.retired.retiredCount

theorem Early.robCount (h : Early s s1 s2 p) : robCount s2 + p = robCount s := by
  have hsame : SameRecords s1 s2 := writeback_keeps (P := SameRecords s1)
    (fun _ _ _ _ hw hu => hu.trans hw.sameRecords) (.of_rob_eq rfl rfl rfl rfl rfl rfl) h.writeback
  rw [hsame.robCount]
  exact h.retired.count

theorem Late.sameRecords (h : Late s2 s3 s4 s5 moved m) : SameRecords s2 s4 :=
  (carried_execute h.execute).sameRecords.trans <| schedule_keeps (P := fun _ => SameRecords s3) (fun _ _ hu => hu)
    (fun _ _ _ _ _ hg hu => hu.trans hg.sameRecords) (.of_rob_eq rfl rfl rfl rfl rfl rfl) h.schedule

/-- The whole of a tick before Fetch, by what the stages write. -/
theorem Late.frame (h : Late s2 s3 s4 s5 moved m) : decode s5 = { s2 with
    rat := s5.rat, rob := s5.rob, robTail := s5.robTail, exeq := s3.exeq, latchSC := s4.latchSC, latchEX := s3.latchEX
    latchID := (decode s5).latchID, latchFE := (decode s5).latchFE } := by
  have h3 := h.executed.frame
  have h5 := h.issuedBy.frame
  have hd := h.decoded.frame
  unfold Stage.Frame at h3 h5 hd
  rw [hd, h5, h.scheduled.frame, h3]

theorem Late.latchFE (h : Late s2 s3 s4 s5 moved m) : s5.latchFE = s2.latchFE ∧ s4.latchID = s2.latchID ∧
    s5.latchFE.length = (decode s5).latchFE.length := by
  have h3 := h.executed.frame
  have h5 := h.issuedBy.frame
  unfold Stage.Frame at h3 h5
  exact ⟨by rw [h5, h.scheduled.frame, h3], by rw [h.scheduled.frame, h3], h.decoded.lengthFE.symm⟩

theorem Early.latches (h : Early s s1 s2 p) : s2.latchFE = s.latchFE ∧ s2.latchID = s.latchID := by
  rw [h.frame]
  exact ⟨rfl, rfl⟩

/-- The counts of a tick: what Issue and Decode leave. -/
theorem Late.counts (h : Late s2 s3 s4 s5 moved m) (hID : s5.latchID.length = s5.cfg.pipeWidth) :
    robCount s5 = min (robCount s2 + laneCount s2.latchID) s2.cfg.robSize ∧
      robCount s5 + laneCount s5.latchID = robCount s2 + laneCount s2.latchID ∧
      laneCount (decode s5).latchID = min s2.cfg.pipeWidth (laneCount s5.latchID + laneCount s2.latchFE) ∧
      laneCount (decode s5).latchID + laneCount (decode s5).latchFE = laneCount s5.latchID + laneCount s2.latchFE := by
  obtain ⟨hFE, hID4, -⟩ := h.latchFE
  have hcount := h.count
  have hmore := h.issuedBy.count
  have hleft := h.issuedBy.left
  have hdecoded := h.decoded.laneCount_ID hID
  have hall := h.decoded.count
  have hcfg5 : s5.cfg = s2.cfg := h.issuedBy.frame.cfg.trans h.sameRecords.cfg
  rw [h.sameRecords.robCount, hID4, h.sameRecords.cfg] at hcount
  rw [h.sameRecords.robCount] at hmore
  rw [hID4] at hleft
  rw [hFE, hcfg5] at hdecoded
  rw [hFE] at hall
  exact ⟨hcount, by omega, hdecoded, hall⟩

theorem Path.sameFixed {st : Stage} (h : Path st s s1) : SameFixed s s1 :=
  h.keeps (P := SameFixed s) (fun _ _ hmove hu => hu.trans hmove.sameFixed) ⟨rfl, rfl, rfl, rfl, rfl, rfl⟩

theorem stall_of_stalls_eq {latch latch' : List Lane} (h : stalls latch' = stalls latch)
    (hs : ∀ l ∈ latch, l.stall = false) : ∀ l ∈ latch', l.stall = false := fun l hl => by
  have hmem : l.stall ∈ stalls latch' := List.mem_map_of_mem hl
  rw [h] at hmem
  obtain ⟨l', hl', he⟩ := List.mem_map.mp hmem
  rw [← he]
  exact hs l' hl'

theorem length_of_stalls_eq {latch latch' : List Lane} (h : stalls latch' = stalls latch) :
    latch'.length = latch.length := by simpa [stalls] using congrArg List.length h

theorem Inv.atFetch (hinv : Inv s) (hhalted : s.halted = false) (h : Early s s1 s2 p)
    (h' : Late s2 s3 s4 s5 moved m) : AtFetch s (decode s5) := by
  obtain ⟨hFE2, hID2⟩ := h.latches
  obtain ⟨hFE5, hID4, hlengthFE⟩ := h'.latchFE
  have hshaped := wellShaped_iff.mp hinv.shape
  obtain ⟨hnoFE, -⟩ := hinv.noStall
  have hcfg5 : s5.cfg = s.cfg := (h'.issuedBy.frame.cfg.trans h'.sameRecords.cfg).trans h.cfg
  have hlengthID5 : s5.latchID.length = s5.cfg.pipeWidth := by
    obtain ⟨-, -, -, hstalls, -⟩ := (path_issue h'.issue).sameFixed
    rw [length_of_stalls_eq hstalls, hID4, hID2, hshaped.latchID.length, hcfg5]
  obtain ⟨hrob5, hissue, hID, hFE⟩ := h'.counts hlengthID5
  have hpos := h.retired.pos_iff hinv.coreOk_counted.backend.rob h.stop
  have hcount := h.robCount
  have hretired := h.retiredCount
  have hframe := h'.frame
  have hframe2 := h.frame
  have hret : (decode s5).retiredCount = s2.retiredCount := by rw [hframe]
  obtain ⟨-, -, hlast⟩ := hinv.front
  have hle : s.retiredCount + p ≤ s.lastSeq := by omega
  have hwidth := s.cfg.one_le_pipeWidth
  have hlength : (decode s5).latchFE.length = s.cfg.pipeWidth := by rw [← hlengthFE, hFE5, hFE2, hshaped.latchFE.length]
  refine ⟨by rw [hframe, hframe2], hlength, ?_, ?_, h'.front, fun heos => ?_, ?_, ?_⟩
  · obtain ⟨-, -, hstalls, -⟩ := (path_decode s5).sameFixed
    rw [hFE5, hFE2] at hstalls
    exact stall_of_stalls_eq hstalls hnoFE
  · have hrest := h'.decoded.rest
    rwa [hFE5, hFE2] at hrest
  · obtain ⟨hbefore, -⟩ := hinv.halt
    obtain ⟨-, -, hfull | hzero⟩ := hbefore heos
    · have hall : laneCount s.latchFE = s.latchFE.length := List.countP_eq_length.mpr hfull
      rw [hshaped.latchFE.length] at hall
      exact .inr (by omega)
    · exact .inl hzero
  · have hmid : (decode s5).halted = s1.halted := by
      have hwritten := h.written.frame
      unfold Stage.Frame at hwritten
      rw [hframe, hwritten]
    have hcommit := h.retired.halted
    obtain ⟨-, hafter⟩ := hinv.halt
    rw [hmid, Bool.eq_iff_iff, hcommit, decide_eq_true_iff, hret, hretired]
    show s.halted = true ∨ (s.eosSeen = true ∧ 0 < p ∧ s.haltSeq ≤ s.retiredCount + p) ↔ _
    rw [hhalted, or_iff_right Bool.false_ne_true]
    refine and_congr_right fun heos => ?_
    obtain ⟨hhalt, hnot⟩ := hafter heos
    rw [hhalted] at hnot
    have hne := of_decide_eq_false hnot.symm
    rw [hhalt]
    omega
  · have hspace := hinv.robOk.robHasSpace_iff
    have hrobLe := hinv.robOk.robCount_le
    have hready : robHeadIsReady (counted s) = robHeadIsReady s := rfl
    have hleID : laneCount s.latchID ≤ s.latchID.length := List.countP_le_length
    have hleFE : laneCount s.latchFE ≤ s.latchFE.length := List.countP_le_length
    have hany := any_invalid_iff (latch := (decode s5).latchFE)
    rw [List.any_eq_true] at hany
    simp only [Bool.not_eq_true'] at hany
    rw [hready] at hpos
    rw [hany, fetchRoom, Bool.or_eq_true, Bool.or_eq_true, Bool.or_eq_true, any_invalid_iff, any_invalid_iff, hspace,
      ← hpos, hlength]
    rw [hshaped.latchID.length] at hleID ⊢
    rw [hshaped.latchFE.length] at hleFE ⊢
    rw [hFE2] at hID hFE
    rw [hID2] at hrob5 hissue
    rw [h.cfg] at hrob5 hID
    omega

end

end Sys2Proof.Machine
end

section
/-! PROOFS. A tick as seen from outside: the one fault and what it leaves (60_exceptions.md R301 to R303), what waits and what
is read (43_driver_frontend.md R170 to R173), and the end of the input. -/

namespace Sys2Proof.Machine

section
variable {s t u v : State} {first : TraceItem} {i : Instr} {n m : Nat}

/-! ## Fetch after the other stages -/

section
variable (h : AtFetch s u)
include h

theorem AtFetch.cfg : u.cfg = s.cfg := by rw [h.frame]
theorem AtFetch.trace : u.trace = s.trace := by rw [h.frame]
theorem AtFetch.tracePos : u.tracePos = s.tracePos := by rw [h.frame]
theorem AtFetch.lastSeq : u.lastSeq = s.lastSeq := by rw [h.frame]
theorem AtFetch.eosSeen : u.eosSeen = s.eosSeen := by rw [h.frame]
theorem AtFetch.haltSeq : u.haltSeq = s.haltSeq := by rw [h.frame]
theorem AtFetch.fault : u.fault = s.fault := by rw [h.frame]
theorem AtFetch.cycleCount : u.cycleCount = s.cycleCount + 1 := by rw [h.frame]

theorem AtFetch.length : u.latchFE.length = u.cfg.pipeWidth := by rw [h.lengthFE, h.cfg]

theorem AtFetch.fetch_ended (heos : s.eosSeen = true) (first : TraceItem) : fetch first u = u :=
  fetchLanes_ended (h.eosSeen.trans heos) _ _

/-- Before the end of the stream the run has not ended. -/
theorem AtFetch.halted_eq_false (heos : s.eosSeen = false) : u.halted = false := by
  rw [h.halted, decide_eq_false_iff_not, heos]
  exact fun hand => Bool.false_ne_true hand.1

theorem AtFetch.fetch_cases (heos : s.eosSeen = false) (first : TraceItem) :
    (∃ m, FilledBy first u s.cfg.pipeWidth m (fetch first u)) ∨
      ∃ n < s.cfg.pipeWidth, ∃ m v, EndedBy first u n m v (fetch first u) := by
  have hcases := Machine.fetch_cases first h.length h.stallFE (h.eosSeen.trans heos)
  rwa [h.cfg] at hcases

/-- With the stream's own item at the port every read is the stream's. -/
theorem AtFetch.itemAt (p : Nat) : itemAt (Machine.nextItem s) u p =
    Machine.nextItem { s with tracePos := s.tracePos + p } := by
  unfold Machine.itemAt
  split
  next hp => rw [hp, Nat.add_zero]
  next => rw [h.frame]; rfl

/-- Fetch reads the port's item if and only if a lane is free. -/
theorem AtFetch.free_lane (hroom : fetchRoom s = true) : ∃ k, k < s.cfg.pipeWidth ∧ (u.feAt k).valid = false := by
  obtain ⟨l, hl, hv⟩ := h.room.mpr hroom
  obtain ⟨k, hk, rfl⟩ := List.mem_iff_getElem.mp hl
  refine ⟨k, h.lengthFE ▸ hk, ?_⟩
  rwa [State.feAt, List.getD_eq_getElem _ _ hk]

end

/-- With a free lane and the input not ended, a filled latch has read a record. -/
theorem FilledBy.pos (h : FilledBy first s n m t) {k : Nat} (hk : k < n) (hfree : (s.feAt k).valid = false) : 0 < m := by
  obtain ⟨p, hp, -⟩ := h.filled k hfree (h.full k hk)
  omega

theorem FilledBy.halted (h : FilledBy first s n m t) : t.halted = s.halted := by rw [h.frame]

theorem EndedBy.eqs (h : EndedBy first s n m v t) : t.eosSeen = true ∧ t.haltSeq = s.lastSeq + m ∧
    t.lastSeq = s.lastSeq + m ∧ t.tracePos = s.tracePos + m + (if itemAt first s m = .malformed then 1 else 0) ∧
    t.halted = (s.halted || s.lastSeq + m == 0) ∧ t.latchFE = v.latchFE := by
  rw [h.eq, endAt, h.filled.lastSeq, h.filled.tracePos, h.filled.halted]
  exact ⟨rfl, rfl, rfl, rfl, rfl, rfl⟩

/-- The other fields are as Fetch found them. -/
theorem EndedBy.frame (h : EndedBy first s n m v t) : Stage.fetch.Frame s t := by
  have hv := h.filled.frame
  unfold Stage.Frame
  rw [h.eq, endAt, hv]

theorem FilledBy.fetchFrame (h : FilledBy first s n m t) : Stage.fetch.Frame s t := by
  have hv := h.frame
  unfold Stage.Frame
  rw [hv]

/-- When the first item is no record, no lane is filled. -/
theorem FilledBy.zero_of_not_record (h : FilledBy first s n m t) (hfirst : ∀ i, first ≠ .record i) : m = 0 := by
  by_contra hm
  obtain ⟨i, hi⟩ := h.items 0 (by omega)
  exact hfirst i hi

/-! ## The fault (60_exceptions.md) -/

theorem exec_eq_next (hshape : wellShaped s = true) (i : Instr) : exec i s = .next (tick (offered s.cfg i) s) := by
  rw [exec_eq_clock, clock_eq_next]
  exact ⟨hshape, rfl⟩

theorem step_eq_next (hshape : wellShaped s = true) : step s = .next (tick (nextItem s) s) := by
  rw [step_eq_clock, clock_eq_next]
  exact ⟨hshape, rfl⟩

theorem fault_fetch {item : TraceItem} (hitem : ItemOk u.cfg item) : (fetch item u).fault = u.fault :=
  (path_fetch hitem).frame.fault

/-- A tick with the EXEQ's room, up to Fetch. -/
theorem Inv.atFetch_of_room (hinv : Inv s) (hhalted : s.halted = false) (hroom : exeqDemand s ≤ exeqFree s) :
    ∃ u, AtFetch s u ∧ ∀ item, tick item s = fetch item u := by
  obtain ⟨s1, s2, p, hearly, ⟨-, s3, s4, s5, moved, m, hlate, htick⟩ | ⟨hover, -⟩⟩ := hinv.tick_cases hhalted
  · exact ⟨_, hinv.atFetch hhalted hearly hlate, htick⟩
  · omega

theorem Inv.fault_tick (hinv : Inv s) (hhalted : s.halted = false) {item : TraceItem} (hitem : ItemOk s.cfg item) :
    (tick item s).fault = if exeqFree s < exeqDemand s then some .exeqOverflow else none := by
  obtain ⟨s1, s2, p, hearly, ⟨hroom, s3, s4, s5, moved, m, hlate, htick⟩ | ⟨hover, s3, hs3, htick⟩⟩ :=
    hinv.tick_cases hhalted
  · have hu := hinv.atFetch hhalted hearly hlate
    rw [htick, fault_fetch (hu.cfg ▸ hitem), hu.fault, hinv.noFault, if_neg (by omega)]
  · rw [htick, hs3.frame, if_pos hover]

/-- Settles O39: the stages but Execute go on, and Execute stops for want of a slot. -/
theorem onlyExeqOverflowFaults : Obligations.OnlyExeqOverflowFaults := fun i _ hinv hhalted =>
  ⟨_, exec_eq_next hinv.shape i, hinv.fault_tick hhalted (itemOk_offered _ i)⟩

/-- Settles O40: Execute's account of the overflow, on what Commit and Writeback have left. -/
theorem overflowEndsTheTickInExecute : Obligations.OverflowEndsTheTickInExecute := by
  intro i s hinv hhalted hover
  obtain ⟨s1, s2, p, hearly, ⟨hroom, -⟩ | ⟨-, t, ht, htick⟩⟩ := hinv.tick_cases hhalted
  · omega
  have hframe := ht.frame
  have hframe2 := hearly.frame
  have hexeq : s2.exeq = s.exeq := by rw [hframe2]
  have hat (q : Nat) : s2.exeqAt q = s.exeqAt q := by rw [State.exeqAt, hexeq, State.exeqAt]
  refine ⟨t, htick _ ▸ exec_eq_next hinv.shape i, by rw [hframe], ?_, by rw [hframe, hframe2], ht.full,
    fun q hq => (ht.kept q (by rwa [hat])).trans (hat q), by rw [hframe, hframe2], by rw [hframe, hframe2],
    by rw [hframe, hframe2], by rw [hframe, hframe2], by rw [hframe, hframe2], by rw [hframe, hframe2],
    by rw [hframe, hframe2]⟩
  have hmid : t.halted = s1.halted := by
    have hwritten := hearly.written.frame
    unfold Stage.Frame at hwritten
    rw [hframe, hwritten]
  have hdemand : 0 < exeqDemand s2 := by rw [hearly.demand.1]; omega
  obtain ⟨l, hl, hmulti⟩ := List.countP_pos_iff.mp hdemand
  rw [Bool.and_eq_true] at hmulti
  obtain ⟨g, -, -, hgv, -⟩ := hearly.core2.backend.exec.copies l.inst
    (List.mem_append_left _ (List.mem_append_left _ (mem_laneRecords.mpr ⟨l, hl, hmulti.1, rfl⟩)))
  obtain ⟨k, hk, -⟩ := hearly.core2.backend.rob.place_of_valid hgv
  have hlast := hearly.core2.fetched.lastSeq
  have hseq : s2.lastSeq = s.lastSeq := by rw [hframe2]
  have hretired := hearly.retiredCount
  rw [hmid, Bool.eq_false_iff]
  intro hhalt
  rcases hearly.retired.halted.mp hhalt with hold | ⟨heos, -, hle⟩
  · exact Bool.false_ne_true (hhalted.symm.trans hold)
  · obtain ⟨-, hafter⟩ := hinv.halt
    obtain ⟨hhaltSeq, -⟩ := hafter heos
    have hle' : s.haltSeq ≤ s.retiredCount + p := hle
    omega

/-! ## What waits, and the end of the input -/

/-- Settles O33: an ended stream is not read, and where no place frees up every lane is full; after a fault or a halt nothing
is read either. -/
theorem recordWaitsWithoutRoom : Obligations.RecordWaitsWithoutRoom := by
  intro i j s hinv hwait
  rw [exec_eq_next hinv.shape, exec_eq_next hinv.shape]
  have hsame : ∃ t, (∀ item, tick item s = t) ∧ SameStream s t := by
    cases hhalted : s.halted with
    | true =>
      have hstop (item : TraceItem) : tick item s = s := if_neg (by rw [running, hhalted]; exact Bool.false_ne_true)
      exact ⟨s, hstop, rfl, rfl, rfl, rfl⟩
    | false =>
      obtain ⟨s1, s2, p, hearly, ⟨hroom, s3, s4, s5, moved, m, hlate, htick⟩ | ⟨hover, s3, hs3, htick⟩⟩ :=
        hinv.tick_cases hhalted
      · have hu := hinv.atFetch hhalted hearly hlate
        refine ⟨decode s5, fun item => (htick item).trans ?_, hu.eosSeen, hu.tracePos, hu.lastSeq, hu.haltSeq⟩
        rcases hwait with heos | hfull
        · exact hu.fetch_ended heos item
        · refine fetch_of_full item hu.length fun l hl => ?_
          by_contra hv
          rw [Bool.not_eq_true] at hv
          exact Bool.false_ne_true (hfull.symm.trans (hu.room.mp ⟨l, hl, hv⟩))
      · refine ⟨s3, htick, ?_⟩
        rw [hs3.frame, hearly.frame]
        exact ⟨rfl, rfl, rfl, rfl⟩
  obtain ⟨t, htick, heos, hpos, hlast, hhalt⟩ := hsame
  exact ⟨t, by rw [htick], by rw [htick], hpos, hlast, heos, hhalt⟩

/-- The tick that meets no record in its first read. -/
theorem Inv.tick_of_not_record (hinv : Inv s) (hhalted : s.halted = false) (heos : s.eosSeen = false)
    (hdemand : exeqDemand s ≤ exeqFree s) (hroom : fetchRoom s = true) (hfirst : ∀ i, first ≠ .record i) :
    (tick first s).eosSeen = true ∧ (tick first s).haltSeq = s.lastSeq ∧ (tick first s).lastSeq = s.lastSeq ∧
      (tick first s).tracePos = s.tracePos + (if first = .malformed then 1 else 0) ∧
      ((tick first s).halted = true ↔ s.lastSeq = 0) ∧
      (laneRecords (tick first s).latchFE).Sublist (laneRecords s.latchFE) ∧
      (tick first s).cycleCount = s.cycleCount + 1 ∧ (tick first s).fault = none := by
  obtain ⟨u, hu, htick⟩ := hinv.atFetch_of_room hhalted hdemand
  rw [htick]
  obtain ⟨k, hk, hfree⟩ := hu.free_lane hroom
  rcases hu.fetch_cases heos first with ⟨m, hfilled⟩ | ⟨n, -, m, v, hended⟩
  · have hpos := hfilled.pos hk hfree
    have hzero := hfilled.zero_of_not_record hfirst
    omega
  · obtain rfl := hended.filled.zero_of_not_record hfirst
    obtain ⟨heos', hhalt, hlast, hpos, hhalted', hFE⟩ := hended.eqs
    have hrecords := hended.filled.records
    rw [List.range_zero, List.map_nil, List.append_nil] at hrecords
    have hsame : v.latchFE = u.latchFE := by
      refine List.ext_getElem hended.filled.length fun j hj hj' => ?_
      have hlane : v.feAt j = u.feAt j := by
        cases hv : (u.feAt j).valid with
        | true => exact hended.filled.kept j (.inl hv)
        | false =>
          by_cases hjn : j < n
          · obtain ⟨p, hp, -⟩ := hended.filled.filled j hv (hended.filled.full j hjn)
            omega
          · exact hended.filled.kept j (.inr (by omega))
      rwa [State.feAt, State.feAt, List.getD_eq_getElem _ _ hj, List.getD_eq_getElem _ _ hj'] at hlane
    rw [heos', hhalt, hlast, hpos, hhalted', hFE, hsame, hu.lastSeq, hu.tracePos, hu.halted_eq_false heos,
      hended.frame.cycleCount, hu.cycleCount, hended.frame.fault, hu.fault]
    exact ⟨rfl, rfl, rfl, rfl, by simp, hu.records, rfl, hinv.noFault⟩

/-- Settles O34: such a record is offered as a malformed word. -/
theorem outOfRangeRecordEndsTheInput : Obligations.OutOfRangeRecordEndsTheInput := by
  intro i s hinv hhalted heos hi hdemand hroom
  have hoffered : offered s.cfg i = .malformed := by rw [offered, hi]; rfl
  obtain ⟨h1, h2, h3, h4, h5, h6, -, h8⟩ := hinv.tick_of_not_record (first := .malformed) hhalted heos hdemand hroom
    fun _ => by simp
  exact ⟨_, hoffered ▸ exec_eq_next hinv.shape i, h1, h2, h3, h4, h5, h6, h8⟩

end

end Sys2Proof.Machine
end

section
/-! PROOFS. What a tick reads of the stream (43_driver_frontend.md R170 to R172, 20_memory.md R75): each new number stands in a
fetch lane with the stream's record, and the input ends after the last of them. -/

namespace Sys2Proof.Machine

section
variable {s t u v : State} {first : TraceItem} {i : Instr} {n m k : Nat}

theorem nextItem_eq_record (h : nextItem s = .record i) :
    ∃ w, s.trace[s.tracePos]? = some w ∧ decodeRecord s.cfg.numArchRegs w = .ok i := by
  unfold nextItem at h
  split at h
  next => cases h
  next w hw =>
    split at h
    next hi => cases h; exact ⟨w, hw, hi⟩
    next => cases h

theorem nextItem_eq_malformed (h : nextItem s = .malformed) :
    ∃ w, s.trace[s.tracePos]? = some w ∧ malformed s.cfg.numArchRegs w = true := by
  unfold nextItem at h
  split at h
  next => cases h
  next w hw =>
    split at h
    next => cases h
    next he => exact ⟨w, hw, by rw [malformed, he]⟩

theorem nextItem_eq_endOfStream (h : nextItem s = .endOfStream) : s.trace.length ≤ s.tracePos := by
  unfold nextItem at h
  split at h
  next hnone => exact List.getElem?_eq_none_iff.mp hnone
  next w hw => split at h <;> cases h

/-! ## The records of a tick -/

theorem seq_le_lastSeq_of_frontOk (h : FrontOk s) {c : Inst} (hc : c ∈ laneRecords s.latchFE) : c.seq ≤ s.lastSeq := by
  obtain ⟨-, hFE, hlast⟩ := h
  have hmem : c.seq ∈ latchSeqs s.latchFE := by
    rw [latchSeqs_eq_map]
    exact List.mem_map_of_mem hc
  obtain ⟨-, hhigh⟩ := List.mem_range'_1.mp (hFE.subset hmem)
  omega

/-- What Fetch has filled, whether or not it has ended the input then. -/
theorem AtFetch.fetch_filled (h : AtFetch s u) (heos : s.eosSeen = false) (first : TraceItem) :
    ∃ n m v, n ≤ s.cfg.pipeWidth ∧ FilledBy first u n m v ∧ (fetch first u).latchFE = v.latchFE ∧
      (fetch first u).lastSeq = s.lastSeq + m ∧
      ((n = s.cfg.pipeWidth ∧ fetch first u = v) ∨ EndedBy first u n m v (fetch first u)) := by
  rcases h.fetch_cases heos first with ⟨m, hfilled⟩ | ⟨n, hn, m, v, hended⟩
  · exact ⟨_, m, _, Nat.le_refl _, hfilled, rfl, by rw [hfilled.lastSeq, h.lastSeq], .inl ⟨rfl, rfl⟩⟩
  · obtain ⟨-, -, hlast, -, -, hFE⟩ := hended.eqs
    exact ⟨n, m, v, hn.le, hended.filled, hFE, by rw [hlast, h.lastSeq], .inr hended⟩

/-- The lane that read number `p` has filled. -/
theorem FilledBy.lane (h : FilledBy first u n m v) (hstall : ∀ l ∈ u.latchFE, l.stall = false) {p : Nat} (hp : p < m)
    (hi : itemAt first u p = .record i) :
    ∃ k < n, v.feAt k = { valid := true, stall := false, inst := fetchedInst (u.lastSeq + p + 1) i } := by
  obtain ⟨k, hk, hlane⟩ := h.placed p hp
  have hfree : (u.feAt k).stall = false := stall_getD hstall k
  exact ⟨k, hk, by simp only [hlane, newInst_of_record hi, hfree]⟩

/-- A read after the first, and with the stream's own item at the port the first as well, is the stream's record. -/
theorem fetchedFromStream_of_filled (h : AtFetch s u) (hpos : s.tracePos = s.lastSeq) (hfilled : FilledBy first u n m v)
    (hn : n ≤ s.cfg.pipeWidth) (hFE : t.latchFE = v.latchFE) {p : Nat} (hp : p < m)
    (hfirst : p ≠ 0 ∨ first = nextItem s) : FetchedFromStream s t (s.lastSeq + p + 1) := by
  have hitem : itemAt first u p = nextItem { s with tracePos := s.tracePos + p } := by
    rcases hfirst with hp0 | rfl
    · rw [← h.itemAt p, itemAt, itemAt, if_neg hp0, if_neg hp0]
    · exact h.itemAt p
  obtain ⟨i, hi⟩ := hfilled.items p hp
  obtain ⟨w, hw, hdecode⟩ := nextItem_eq_record (hitem.symm.trans hi)
  obtain ⟨k, hk, hlane⟩ := hfilled.lane h.stallFE hp hi
  refine ⟨k, w, i, by omega, ?_, hdecode, ?_⟩
  · rwa [Nat.add_sub_cancel, ← hpos]
  · rw [State.feAt, hFE]
    rwa [h.lastSeq] at hlane

theorem recordAdmitted_exec (i : Instr) (s : State) (hinv : Inv s) (hhalted : s.halted = false)
    (heos : s.eosSeen = false) (hi : i.wellFormed s.cfg.numArchRegs = true) (hdemand : exeqDemand s ≤ exeqFree s)
    (hroom : fetchRoom s = true) : ∃ t k, exec i s = .next t ∧ k < s.cfg.pipeWidth ∧
      t.feAt k = { valid := true, stall := false, inst := fetchedInst (s.lastSeq + 1) i } ∧
      inPhase t (s.lastSeq + 1) .fetched = true ∧ s.lastSeq < t.lastSeq ∧ s.tracePos < t.tracePos ∧
      (∀ q, s.lastSeq + 1 < q → q ≤ t.lastSeq → FetchedFromStream s t q) ∧
      t.cycleCount = s.cycleCount + 1 ∧ t.fault = none ∧ t.halted = false := by
  obtain ⟨u, hu, htick⟩ := hinv.atFetch_of_room hhalted hdemand
  have hoffered : offered s.cfg i = .record i := by rw [offered, hi]; rfl
  have hexec := exec_eq_next hinv.shape i
  rw [hoffered, htick] at hexec
  obtain ⟨-, -, -, hpos⟩ := hinv.stream
  obtain ⟨n, m, v, hn, hfilled, hFE, hlast, hend⟩ := hu.fetch_filled heos (.record i)
  obtain ⟨k0, hk0, hfree⟩ := hu.free_lane hroom
  have hm : 0 < m := by
    rcases hend with ⟨rfl, -⟩ | hended
    · exact hfilled.pos hk0 hfree
    · refine Nat.pos_of_ne_zero fun hm => ?_
      subst hm
      exact hended.item i rfl
  obtain ⟨k, hk, hlane⟩ := hfilled.lane hu.stallFE hm (i := i) rfl
  have hlane' : (fetch (.record i) u).feAt k =
      { valid := true, stall := false, inst := fetchedInst (s.lastSeq + 1) i } := by
    rw [State.feAt, hFE]
    rwa [hu.lastSeq] at hlane
  have hrest : s.tracePos < (fetch (.record i) u).tracePos ∧ (fetch (.record i) u).cycleCount = s.cycleCount + 1 ∧
      (fetch (.record i) u).fault = none ∧ (fetch (.record i) u).halted = false := by
    rcases hend with ⟨-, hsame⟩ | hended
    · rw [hsame, hfilled.tracePos, hfilled.fetchFrame.cycleCount, hfilled.fetchFrame.fault, hfilled.halted, hu.tracePos,
        hu.cycleCount, hu.fault]
      exact ⟨by omega, rfl, hinv.noFault, hu.halted_eq_false heos⟩
    · obtain ⟨-, -, -, hpos', hhalt, -⟩ := hended.eqs
      rw [hpos', hended.frame.cycleCount, hended.frame.fault, hhalt, hu.tracePos, hu.cycleCount, hu.fault,
        hu.halted_eq_false heos]
      exact ⟨by omega, rfl, hinv.noFault, by simp; omega⟩
  obtain ⟨hread, hcycle, hfault, hrun⟩ := hrest
  refine ⟨_, k, hexec, by omega, hlane', ?_, by omega, hread, fun q hlow hhigh => ?_, hcycle, hfault, hrun⟩
  · refine latchHolds_iff.mpr ?_
    rw [latchSeqs_eq_map]
    have hmem := inst_mem_laneRecords (latch := (fetch (.record i) u).latchFE) (k := k) (congrArg Lane.valid hlane')
    refine List.mem_map.mpr ⟨_, hmem, ?_⟩
    have hinst : ((fetch (.record i) u).latchFE.getD k .empty).inst = fetchedInst (s.lastSeq + 1) i :=
      congrArg Lane.inst hlane'
    rw [hinst]
    rfl
  · have hq := fetchedFromStream_of_filled hu (hpos heos) hfilled hn hFE (p := q - s.lastSeq - 1) (by omega) (.inl (by omega))
    rwa [show s.lastSeq + (q - s.lastSeq - 1) + 1 = q by omega] at hq

/-- A step from a running machine with the invariant, by what it makes of the stream: it goes on to Fetch with the stream's own
item, or it leaves the front end alone. -/
theorem Inv.step_cases (hinv : Inv s) (h : step s = .next t) :
    (s.halted = false ∧ exeqDemand s ≤ exeqFree s ∧ ∃ u, AtFetch s u ∧ t = fetch (nextItem s) u) ∨
      (t.latchFE = s.latchFE ∧ SameStream s t) := by
  rw [step_eq_next hinv.shape] at h
  cases h
  cases hhalted : s.halted with
  | true =>
    have hstop : tick (nextItem s) s = s := if_neg (by rw [running, hhalted]; exact Bool.false_ne_true)
    rw [hstop]
    exact .inr ⟨rfl, rfl, rfl, rfl, rfl⟩
  | false =>
    obtain ⟨s1, s2, p, hearly, ⟨hroom, s3, s4, s5, moved, m, hlate, htick⟩ | ⟨-, s3, hs3, htick⟩⟩ :=
      hinv.tick_cases hhalted
    · exact .inl ⟨rfl, hroom, _, hinv.atFetch hhalted hearly hlate, htick _⟩
    · rw [htick, hs3.frame, hearly.frame]
      exact .inr ⟨rfl, rfl, rfl, rfl, rfl⟩

theorem newRecords_step (hinv : Inv s) (h : step s = .next t) :
    (∀ q, s.lastSeq < q → q ≤ t.lastSeq → FetchedFromStream s t q) ∧
    ∀ k k', k < k' → (t.feAt k).valid = true → (t.feAt k').valid = true → s.lastSeq < (t.feAt k).inst.seq →
      s.lastSeq < (t.feAt k').inst.seq → (t.feAt k).inst.seq < (t.feAt k').inst.seq := by
  have hold {w : State} (hw : ∀ c ∈ laneRecords w.latchFE, c.seq ≤ s.lastSeq) (k : Nat) (hv : (w.feAt k).valid = true) :
      (w.feAt k).inst.seq ≤ s.lastSeq := hw _ (inst_mem_laneRecords hv)
  have hlow : ∀ c ∈ laneRecords s.latchFE, c.seq ≤ s.lastSeq := fun c hc => seq_le_lastSeq_of_frontOk hinv.front hc
  rcases hinv.step_cases h with ⟨-, -, u, hu, rfl⟩ | ⟨hFE, -, -, hlast, -⟩
  · have hlowu : ∀ c ∈ laneRecords u.latchFE, c.seq ≤ s.lastSeq := fun c hc => hlow c (hu.records.subset hc)
    cases heos : s.eosSeen with
    | true =>
      rw [hu.fetch_ended heos, hu.lastSeq]
      exact ⟨fun q hq hq' => absurd hq (by omega), fun k k' _ hv _ hk _ => absurd hk (by have := hold hlowu k hv; omega)⟩
    | false =>
      obtain ⟨-, -, -, hpos⟩ := hinv.stream
      obtain ⟨n, m, v, hn, hfilled, hFE, hlast, -⟩ := hu.fetch_filled heos (nextItem s)
      have hlane (k : Nat) : (fetch (nextItem s) u).feAt k = v.feAt k := by rw [State.feAt, hFE, State.feAt]
      have hfree (k : Nat) (hv : (v.feAt k).valid = true) (hk : s.lastSeq < (v.feAt k).inst.seq) :
          (u.feAt k).valid = false := by
        by_contra hvu
        rw [Bool.not_eq_false] at hvu
        rw [hfilled.kept k (.inl hvu)] at hk
        have := hold hlowu k hvu
        omega
      refine ⟨fun q hq hq' => ?_, fun k k' hkk hv hv' hk hk' => ?_⟩
      · have hread := fetchedFromStream_of_filled hu (hpos heos) hfilled hn hFE (p := q - s.lastSeq - 1) (by omega) (.inr rfl)
        rwa [show s.lastSeq + (q - s.lastSeq - 1) + 1 = q by omega] at hread
      · rw [hlane] at hv hk ⊢
        rw [hlane] at hv' hk' ⊢
        exact hfilled.sorted k k' hkk (hfree k hv hk) (hfree k' hv' hk') hv hv'
  · rw [← hFE] at hlow
    exact ⟨fun q hq hq' => absurd hq (by omega), fun k k' _ hv _ hk _ => absurd hk (by have := hold hlow k hv; omega)⟩

/-- Settles O32: the first read takes the port's record, every later one the stream's. -/
theorem recordIsAdmitted : Obligations.RecordIsAdmitted := ⟨recordAdmitted_exec, fun _ _ => newRecords_step⟩

/-! ## The end of the input -/

/-- What stands at the read position when the input ends. -/
theorem EndedBy.item_cases (hu : AtFetch s u) (h : EndedBy (nextItem s) u n m v t) :
    (itemAt (nextItem s) u m = .endOfStream ∧ s.trace.length ≤ s.tracePos + m) ∨
      (itemAt (nextItem s) u m = .malformed ∧
        ∃ w, s.trace[s.tracePos + m]? = some w ∧ malformed s.cfg.numArchRegs w = true) := by
  have hitem := hu.itemAt m
  cases hcase : itemAt (nextItem s) u m with
  | record i => exact absurd hcase (h.item i)
  | endOfStream => exact .inl ⟨rfl, nextItem_eq_endOfStream (s := { s with tracePos := s.tracePos + m }) (by rw [← hitem, hcase])⟩
  | malformed => exact .inr ⟨rfl, nextItem_eq_malformed (s := { s with tracePos := s.tracePos + m }) (by rw [← hitem, hcase])⟩

theorem inputEnds_step (hinv : Inv s) (h : step s = .next t) (heos : s.eosSeen = false) (hend : t.eosSeen = true) :
    t.haltSeq = t.lastSeq ∧ (t.halted = true ↔ t.lastSeq = 0) ∧ t.fault = none ∧
      ((t.tracePos = t.lastSeq ∧ s.trace.length ≤ t.lastSeq) ∨
        (t.tracePos = t.lastSeq + 1 ∧
          ∃ w, s.trace[t.lastSeq]? = some w ∧ malformed s.cfg.numArchRegs w = true)) := by
  rcases hinv.step_cases h with ⟨-, -, u, hu, rfl⟩ | ⟨-, hsame, -⟩
  · rcases hu.fetch_cases heos (nextItem s) with ⟨m, hfilled⟩ | ⟨n, -, m, v, hended⟩
    · rw [hfilled.eosSeen, hu.eosSeen, heos] at hend
      cases hend
    · obtain ⟨-, -, -, hstream⟩ := hinv.stream
      obtain ⟨-, hhalt, hlast, hpos, hhalted, -⟩ := hended.eqs
      rw [hhalt, hlast, hpos, hhalted, hended.frame.fault, hu.fault, hu.halted_eq_false heos, hu.tracePos, hu.lastSeq,
        hstream heos]
      refine ⟨rfl, by simp, hinv.noFault, ?_⟩
      have hcases := hended.item_cases hu
      rw [hstream heos] at hcases
      refine hcases.imp (fun ⟨hitem, hlen⟩ => ?_) (fun ⟨hitem, hword⟩ => ?_)
      · rw [hitem]
        exact ⟨rfl, hlen⟩
      · rw [hitem]
        exact ⟨rfl, hword⟩
  · rw [heos] at hsame
    exact absurd (hsame.symm.trans hend) (by decide)

/-- Settles O59: a malformed word or the end at the port is no record, in the first read or a later one. -/
theorem inputEndsAtMalformedWordOrEnd : Obligations.InputEndsAtMalformedWordOrEnd := by
  refine ⟨fun s w hinv hhalted heos hdemand hroom hw hm => ?_, fun s hinv hhalted heos hdemand hroom hpos => ?_,
    fun s t hinv h heos hend => inputEnds_step hinv h heos hend⟩
  · have hitem := nextItem_of_malformed hw hm
    have hstep := step_eq_next hinv.shape
    rw [hitem] at hstep
    exact ⟨_, hstep, hinv.tick_of_not_record (first := .malformed) hhalted heos hdemand hroom fun _ => by simp⟩
  · have hitem := nextItem_of_end hpos
    have hstep := step_eq_next hinv.shape
    rw [hitem] at hstep
    exact ⟨_, hstep, hinv.tick_of_not_record (first := .endOfStream) hhalted heos hdemand hroom fun _ => by simp⟩

end

end Sys2Proof.Machine
end

section
/-! PROOFS. The whole invariant over a step (49_properties.md sections 1 to 3 and 8): the back end from its stages, the front
end and the stream from what Fetch has read. -/

namespace Sys2Proof.Machine

section
variable {s s1 s2 s3 s4 s5 t u v : State} {first : TraceItem} {moved : List Inst} {n m p : Nat}

/-! ## The front end -/

/-- The records read take the numbers that follow. -/
theorem FilledBy.frontOk (h : FilledBy first s n m t) (hs : FrontOk s) : FrontOk t := by
  obtain ⟨hID, hFE, hlast⟩ := hs
  have hcount := h.records.length_eq
  rw [List.length_append, List.length_map, List.length_range, ← laneCount_eq_length, ← laneCount_eq_length] at hcount
  have hret : t.retiredCount = s.retiredCount := by rw [h.frame]
  have hrob : robCount t = robCount s := by rw [h.frame]; rfl
  have hlatch : t.latchID = s.latchID := by rw [h.frame]
  refine ⟨by rw [hret, hrob, hlatch]; exact hID, ?_, ?_⟩
  · rw [hret, hrob, hlatch, hcount, ← List.range'_append_1]
    have hseqs := h.records.map fun c => c.seq
    rw [List.map_append, List.map_map, ← latchSeqs_eq_map, ← latchSeqs_eq_map] at hseqs
    refine hseqs.trans (hFE.append (.of_eq ?_))
    rw [List.range'_eq_map_range]
    refine List.map_congr_left fun p hp => ?_
    rw [Function.comp, h.seq_newInst (List.mem_range.mp hp)]
    omega
  · rw [hret, hrob, hlatch, hcount, h.lastSeq]
    omega

theorem freshOk_iff : FreshOk s ↔ (∀ c ∈ laneRecords s.latchFE, Fresh c) ∧ ∀ c ∈ laneRecords s.latchID, Fresh c := by
  have hlatch (latch : List Lane) : (∀ l ∈ latch, l.valid = true → Fresh l.inst) ↔ ∀ c ∈ laneRecords latch, Fresh c := by
    constructor
    · intro h c hc
      obtain ⟨l, hl, hv, rfl⟩ := mem_laneRecords.mp hc
      exact h l hl hv
    · exact fun h l hl hv => h _ (mem_laneRecords.mpr ⟨l, hl, hv, rfl⟩)
  rw [FreshOk, hlatch, hlatch]

theorem FilledBy.fresh (h : FilledBy first s n m t) (hs : ∀ c ∈ laneRecords s.latchFE, Fresh c) :
    ∀ c ∈ laneRecords t.latchFE, Fresh c := by
  intro c hc
  rcases List.mem_append.mp (h.records.subset hc) with hc | hc
  · exact hs c hc
  · obtain ⟨p, hp, rfl⟩ := List.mem_map.mp hc
    obtain ⟨i, hi⟩ := h.items p (List.mem_range.mp hp)
    rw [newInst_of_record hi]
    exact ⟨rfl, rfl, rfl, rfl, rfl, rfl⟩

/-- Decode and Issue take their records from the front end. -/
theorem Late.fresh (h : Late s2 s3 s4 s5 moved m) (hs : FreshOk s2) : FreshOk (decode s5) := by
  obtain ⟨hFE5, hID4, -⟩ := h.latchFE
  have hsub : (laneRecords s5.latchID).Sublist (laneRecords s4.latchID) := by
    refine (path_issue h.issue).keeps (P := fun u => (laneRecords u.latchID).Sublist (laneRecords s4.latchID))
      (fun u v hmove hu => ?_) (.refl _)
    cases hmove with
    | issue hj hone =>
      rw [hone.latchID]
      exact (laneRecords_set_invalid_sublist rfl).trans hu
  rw [freshOk_iff] at hs ⊢
  obtain ⟨hFE, hID⟩ := hs
  rw [← hFE5] at hFE
  rw [← hID4] at hID
  refine ⟨fun c hc => hFE c (h.decoded.rest.subset hc), fun c hc => ?_⟩
  rcases List.mem_append.mp (h.decoded.records.subset (List.mem_append_left _ hc)) with hc | hc
  · exact hID c (hsub.subset hc)
  · exact hFE c hc

/-! ## The countdowns -/

theorem countdownOk_iff : CountdownOk s ↔
    ∀ c ∈ exeqRecords s, 1 < lat s.cfg c.op ∧ c.wait < lat s.cfg c.op := by
  constructor
  · intro h c hc
    obtain ⟨x, hx, hv, rfl⟩ := mem_exeqRecords.mp hc
    exact h x hx hv
  · exact fun h x hx hv => h _ (mem_exeqRecords.mpr ⟨x, hx, hv, rfl⟩)

/-- What enters the EXEQ is aged in the same tick. -/
theorem Executed.countdownOk (h : Executed s t moved) (hs : CountdownOk s) : CountdownOk t := by
  rw [countdownOk_iff] at hs ⊢
  rw [h.frame.cfg]
  intro c hc
  obtain ⟨d, hd, rfl⟩ := List.mem_map.mp (h.queue.subset (List.mem_append_left _ hc))
  rcases List.mem_append.mp hd with hd | hd
  · obtain ⟨hlat, hwait⟩ := hs d hd
    exact ⟨hlat, (Nat.sub_le _ _).trans_lt hwait⟩
  · obtain ⟨e, he, rfl⟩ := List.mem_map.mp hd
    obtain ⟨-, hmulti⟩ := List.mem_filter.mp he
    have hlat := not_single_iff.mp hmulti
    exact ⟨hlat, Nat.sub_lt (Nat.zero_lt_of_lt hlat) Nat.one_pos⟩

/-! ## Fetch and the run -/

/-- The front end after Fetch, whatever it has read. -/
theorem AtFetch.front_fetch (h : AtFetch s u) (first : TraceItem) (hfresh : FreshOk u) :
    FrontOk (fetch first u) ∧ FreshOk (fetch first u) := by
  cases heos : s.eosSeen with
  | true =>
    rw [h.fetch_ended heos]
    exact ⟨h.front, hfresh⟩
  | false =>
    obtain ⟨hFE, hID⟩ := freshOk_iff.mp hfresh
    have hfilled {n m : Nat} {v : State} (hv : FilledBy first u n m v) : FrontOk v ∧ FreshOk v :=
      ⟨hv.frontOk h.front, freshOk_iff.mpr ⟨hv.fresh hFE, by
        have hlatch : v.latchID = u.latchID := by rw [hv.frame]
        rw [hlatch]
        exact hID⟩⟩
    rcases h.fetch_cases heos first with ⟨m, hv⟩ | ⟨n, -, m, v, hended⟩
    · exact hfilled hv
    · obtain ⟨hfront', hfresh'⟩ := hfilled hended.filled
      rw [hended.eq]
      exact ⟨hfront', hfresh'⟩

/-- The end of the stream, the halt and the read position after a step's Fetch. -/
theorem haltOk_fetch (h : AtFetch s u) (hinv : Inv s) :
    HaltOk (fetch (nextItem s) u) ∧ StreamOk (fetch (nextItem s) u) := by
  obtain ⟨hpos1, hpos2, hpos3, hpos4⟩ := hinv.stream
  obtain ⟨hbefore, hafter⟩ := hinv.halt
  cases heos : s.eosSeen with
  | true =>
    obtain ⟨hhalt, -⟩ := hafter heos
    rw [h.fetch_ended heos]
    have hu := h.eosSeen.trans heos
    refine ⟨⟨fun hnot => absurd (hu.symm.trans hnot) (by decide), fun _ => ?_⟩, ?_⟩
    · rw [h.haltSeq, h.lastSeq, h.halted, heos]
      exact ⟨hhalt, by simp⟩
    · rw [StreamOk, h.tracePos, h.trace, h.lastSeq, hu]
      exact ⟨hpos1, hpos2, hpos3, fun hnot => nomatch hnot⟩
  | false =>
    obtain ⟨hhalt, -, -⟩ := hbefore heos
    rcases h.fetch_cases heos (nextItem s) with ⟨m, hv⟩ | ⟨n, -, m, v, hended⟩
    · have hlen : s.tracePos + m ≤ s.trace.length := by
        cases m with
        | zero => exact hpos1
        | succ m =>
          obtain ⟨i, hi⟩ := hv.items m (Nat.lt_succ_self m)
          obtain ⟨w, hw, -⟩ := nextItem_eq_record ((h.itemAt m).symm.trans hi)
          obtain ⟨hlt, -⟩ := List.getElem?_eq_some_iff.mp hw
          exact hlt
      have hfull : ∀ l ∈ (fetch (nextItem s) u).latchFE, l.valid = true :=
        forall_lane_iff.mpr fun i hi => hv.full i (by rwa [hv.length, h.lengthFE] at hi)
      have hopen : (fetch (nextItem s) u).eosSeen = false := by rw [hv.eosSeen, h.eosSeen, heos]
      have htrace : (fetch (nextItem s) u).trace = s.trace := by rw [hv.frame]; exact h.trace
      have hhaltSeq : (fetch (nextItem s) u).haltSeq = s.haltSeq := by rw [hv.frame]; exact h.haltSeq
      refine ⟨⟨fun _ => ⟨hhaltSeq.trans hhalt, hv.halted.trans (h.halted_eq_false heos), .inl hfull⟩,
        fun hend => absurd (hopen.symm.trans hend) (by decide)⟩, ?_⟩
      rw [StreamOk, htrace, hv.tracePos, hv.lastSeq, h.tracePos, h.lastSeq]
      exact ⟨hlen, by omega, by omega, fun _ => by rw [hpos4 heos]⟩
    · obtain ⟨hend, hhaltSeq, hlast, hpos, hhalted, -⟩ := hended.eqs
      have hretired : (fetch (nextItem s) u).retiredCount = u.retiredCount := hended.frame.retiredCount (by simp)
      have htrace : (fetch (nextItem s) u).trace = s.trace := by
        rw [hended.eq, endAt, hended.filled.frame]
        exact h.trace
      obtain ⟨-, -, hulast⟩ := h.front
      rw [h.lastSeq] at hulast
      have hbehind := h.behind heos
      refine ⟨⟨fun hnot => absurd (hend.symm.trans hnot) (by decide), fun _ => ⟨hhaltSeq.trans hlast.symm, ?_⟩⟩, ?_⟩
      · rw [hhalted, hlast, hretired, h.halted_eq_false heos, h.lastSeq, Bool.false_or, Bool.eq_iff_iff, beq_iff_eq,
          decide_eq_true_iff]
        omega
      · rw [StreamOk, htrace, hpos, hlast, h.tracePos, h.lastSeq, hend, hpos4 heos]
        refine ⟨?_, by omega, by split <;> omega, fun hnot => nomatch hnot⟩
        have hpos := hpos4 heos
        rcases hended.item_cases h with ⟨hitem, -⟩ | ⟨hitem, w, hw, -⟩
        · rw [hitem]
          cases m with
          | zero => simp; omega
          | succ m =>
            obtain ⟨i, hi⟩ := hended.filled.items m (Nat.lt_succ_self m)
            obtain ⟨w, hw, -⟩ := nextItem_eq_record ((h.itemAt m).symm.trans hi)
            obtain ⟨hlt, -⟩ := List.getElem?_eq_some_iff.mp hw
            have hlt' : s.tracePos + m < s.trace.length := hlt
            simp
            omega
        · rw [hitem]
          obtain ⟨hlt, -⟩ := List.getElem?_eq_some_iff.mp hw
          simp
          omega

/-! ## The step -/

/-- A step without a fault from a running machine with the invariant. -/
theorem Inv.stages (hinv : Inv s) (hhalted : s.halted = false) (h : step s = .next t) (hfault : t.fault = none) :
    ∃ s1 s2 p s3 s4 s5 moved m, Early s s1 s2 p ∧ Late s2 s3 s4 s5 moved m ∧ AtFetch s (decode s5) ∧
      t = fetch (nextItem s) (decode s5) := by
  rw [step_eq_next hinv.shape] at h
  cases h
  obtain ⟨s1, s2, p, hearly, ⟨-, s3, s4, s5, moved, m, hlate, htick⟩ | ⟨-, s3, hs3, htick⟩⟩ := hinv.tick_cases hhalted
  · exact ⟨s1, s2, p, s3, s4, s5, moved, m, hearly, hlate, hinv.atFetch hhalted hearly hlate, htick _⟩
  · rw [htick, hs3.frame] at hfault
    cases hfault

theorem eq_of_step_of_halted (hhalted : s.halted = true) (h : step s = .next t) : t = s :=
  eq_of_step_of_not_running h (by rw [running, hhalted]; rfl)

/-- What Fetch leaves of the back end. -/
theorem fetch_frontEnd (item : TraceItem) (hu : AtFetch s u) (hitem : ItemOk s.cfg item) :
    Stage.fetch.Frame u (fetch item u) := (path_fetch (hu.cfg ▸ hitem)).frame

theorem Late.liveOk (h : Late s2 s3 s4 s5 moved m) (hframe : Stage.fetch.Frame (decode s5) t) : LiveOk t := by
  have hd := h.decoded.frame
  unfold Stage.Frame at hframe hd
  refine h.core5.live.congr ?_ ?_ ?_
  · rw [hframe, hd]
  · rw [hframe, hd]
  · rw [hframe, hd]
    rfl

theorem Late.countdownOk (h : Late s2 s3 s4 s5 moved m) (hs : CountdownOk s2)
    (hframe : Stage.fetch.Frame (decode s5) t) : CountdownOk t := by
  have h3 := h.executed.countdownOk hs
  have hd := h.frame
  have h3' := h.executed.frame
  unfold Stage.Frame at hframe h3'
  have hexeq : t.exeq = s3.exeq := by rw [hframe, hd]
  have hcfg : t.cfg = s3.cfg := by rw [hframe, hd, h3']
  rw [CountdownOk, hexeq, hcfg]
  exact h3

/-- Settles O42: the parts of the invariant, stage by stage. -/
theorem everyStepKeepsTheInvariant : Obligations.EveryStepKeepsTheInvariant := by
  intro s t hinv h hfault
  cases hhalted : s.halted with
  | true => rwa [eq_of_step_of_halted hhalted h]
  | false =>
    obtain ⟨hrob, hexec⟩ := hinv.backend_of_step h hfault
    obtain ⟨item, hitem, hshape, htick⟩ := tick_of_next (i := .alu none none none) (.inr h)
    obtain ⟨hcfg, htrace, hFE, hID, hSC, hEX⟩ := sameFixed_tick hitem
    rw [← htick] at hFE hID hSC hEX
    obtain ⟨s1, s2, p, s3, s4, s5, moved, m, hearly, hlate, hu, ht⟩ := hinv.stages hhalted h hfault
    have hframe : Stage.fetch.Frame (decode s5) t := by
      rw [ht]
      exact fetch_frontEnd _ hu (itemOk_nextItem s)
    have hlive := hlate.liveOk hframe
    obtain ⟨hhalt, hstream⟩ := haltOk_fetch hu hinv
    have hs2 := hearly.frame
    obtain ⟨hfront, hfresh⟩ := hu.front_fetch (nextItem s) (hlate.fresh (by rw [hs2]; exact hinv.fresh))
    rw [← ht] at hhalt hstream hfront hfresh
    obtain ⟨hnoFE, hnoID, hnoSC, hnoEX⟩ := hinv.noStall
    exact {
      shape := by
        rw [htick]
        exact wellShaped_iff.mpr (shaped_tick hitem (wellShaped_iff.mp hinv.shape))
      noFault := hfault
      window := hrob.window
      front := hfront
      fresh := hfresh
      ownTags := hrob.ownTags
      flags := hexec.flags
      copies := ⟨hexec.copies, hexec.distinct, fun u _ hv => hlive.covered u hv⟩
      countdown := hlate.countdownOk (by rw [hs2]; exact hinv.countdown) hframe
      tags := hlive.tags
      rat := hrob.rat
      halt := hhalt
      stream := hstream
      noStall := ⟨stall_of_stalls_eq hFE hnoFE, stall_of_stalls_eq hID hnoID, stall_of_stalls_eq hSC hnoSC,
        stall_of_stalls_eq hEX hnoEX⟩ }

/-- Settles O45: a part of the invariant. -/
theorem everyStepKeepsPendingTagsLive : Obligations.EveryStepKeepsPendingTagsLive := fun _ _ hinv h hfault =>
  (everyStepKeepsTheInvariant _ _ hinv h hfault).tags

end

end Sys2Proof.Machine
end

section
/-! PROOFS. One slot over a tick (48_instruction_classes.md R258, 49_properties.md R284): Writeback wakes it, Schedule may take
it, Issue leaves it alone. -/

namespace Sys2Proof.Machine

section
variable {s s1 s2 s3 s4 s5 t : State} {moved : List Inst} {p m v : Nat}

/-- A slot that is not ready does not retire. -/
theorem RetiredBy.robAt_of_not_ready (h : RetiredBy s p s1) (hv : (s.robAt v).ready = false) :
    s1.robAt v = s.robAt v := by
  rw [h.robAt, if_neg]
  rintro ⟨k, hk, rfl⟩
  exact Bool.false_ne_true (hv.symm.trans (h.ready k hk))

theorem Early.latchEX_eq (h : Early s s1 s2 p) : s1.latchEX = s.latchEX := by
  have hframe := h.retired.frame
  unfold Stage.Frame at hframe
  rw [hframe]
  rfl

theorem Early.robAt_eq (h : Early s s1 s2 p) (u : Nat) : s2.robAt u = writtenSlot s.latchEX u (s1.robAt u) := by
  obtain ⟨hslots, -⟩ := h.written.done h.core1.backend.widths.latchEX
  rw [hslots, h.latchEX_eq]

theorem Early.robAt_of_not_ready (h : Early s s1 s2 p) (hv : (s.robAt v).ready = false) :
    s2.robAt v = writtenSlot s.latchEX v (s.robAt v) := by
  rw [h.robAt_eq, h.retired.robAt_of_not_ready (s := counted s) hv]
  rfl

theorem writtenSlot_of_valid {lanes : List Lane} {u : Nat} {x : RobSlot} (hx : x.valid = true) :
    writtenSlot lanes u x = { x with
      ready := x.ready || holdsTag lanes (some u)
      inst := { x.inst with
        src1Ready := x.inst.src1Ready || holdsTag lanes x.inst.src1Tag
        src2Ready := x.inst.src2Ready || holdsTag lanes x.inst.src2Tag } } := if_pos hx

theorem holdsTag_iff {lanes : List Lane} {g : Option Nat} :
    holdsTag lanes g = true ↔ ∃ l ∈ lanes, l.valid = true ∧ l.inst.drTag = g := by
  simp [holdsTag]

/-- Issue leaves every slot in use alone. -/
theorem Late.robAt_issue (h : Late s2 s3 s4 s5 moved m) (hv : (s4.robAt v).valid = true) : s5.robAt v = s4.robAt v := by
  refine And.left ((path_issue h.issue).keeps (P := fun u => u.robAt v = s4.robAt v ∧ CoreOk u) (fun u w hmove hu => ?_)
    ⟨rfl, h.core4⟩)
  obtain ⟨hsame, hcore⟩ := hu
  cases hmove with
  | issue hj hone => exact ⟨(hone.robAt_of_valid hcore.backend.rob (hsame ▸ hv)).trans hsame, hone.coreOk hj hcore⟩

theorem Late.robAt_schedule (h : Late s2 s3 s4 s5 moved m) (v : Nat) : s4.robAt v = s2.robAt v ∨
    ((s2.robAt v).exec = false ∧ (s2.robAt v).inst.src1Ready = true ∧ (s2.robAt v).inst.src2Ready = true ∧
      s4.robAt v = { s2.robAt v with exec := true } ∧ (s2.robAt v).inst ∈ laneRecords s4.latchSC) := by
  have hrob : s3.robAt v = s2.robAt v := by rw [State.robAt, (carried_execute h.execute).rob, State.robAt]
  rw [← hrob]
  refine (h.scheduled.slot v).imp_right fun ⟨_, hexec, h1, h2, hslot, i, _, hlane⟩ => ⟨hexec, h1, h2, hslot, ?_⟩
  have hvalid : (s4.scAt i).valid = true := by rw [hlane]
  have hmem := inst_mem_laneRecords (latch := s4.latchSC) hvalid
  have hinst : (s4.latchSC.getD i .empty).inst = (s3.robAt v).inst := congrArg Lane.inst hlane
  rwa [hinst] at hmem

/-- A slot in use after Writeback, at the end of the tick: as it is, or taken by Schedule. -/
theorem Late.robAt (h : Late s2 s3 s4 s5 moved m) (hframe : Stage.fetch.Frame (decode s5) t)
    (hv : (s2.robAt v).valid = true) : t.robAt v = s2.robAt v ∨
      ((s2.robAt v).exec = false ∧ (s2.robAt v).inst.src1Ready = true ∧ (s2.robAt v).inst.src2Ready = true ∧
        t.robAt v = { s2.robAt v with exec := true } ∧ (s2.robAt v).inst ∈ laneRecords t.latchSC) := by
  have hd := h.frame
  unfold Stage.Frame at hframe
  have hrob : t.rob = s5.rob := by rw [hframe, hd]
  have hSC : t.latchSC = s4.latchSC := by rw [hframe, hd]
  have hv4 : (s4.robAt v).valid = true := by
    obtain ⟨hvalid, -⟩ := h.sameRecords.slot v
    rw [hvalid, hv]
  have hsame : t.robAt v = s4.robAt v := by rw [State.robAt, hrob]; exact h.robAt_issue hv4
  rw [hsame, hSC]
  exact h.robAt_schedule v

/-- A source that was waiting and is ready when its slot is taken has been woken by a record of the execute latch. -/
theorem Early.woken (h : Early s s1 s2 p) {g : Nat} (hv : (s.robAt v).valid = true) (hnot : (s.robAt v).ready = false)
    (hsource : ((s.robAt v).inst.src1Ready = false ∧ (s.robAt v).inst.src1Tag = some g) ∨
      ((s.robAt v).inst.src2Ready = false ∧ (s.robAt v).inst.src2Tag = some g))
    (hready1 : (s2.robAt v).inst.src1Ready = true) (hready2 : (s2.robAt v).inst.src2Ready = true) :
    holdsTag s.latchEX (some g) = true := by
  rw [h.robAt_of_not_ready hnot, writtenSlot_of_valid hv] at hready1 hready2
  rcases hsource with ⟨hr, htag⟩ | ⟨hr, htag⟩
  · simpa [hr, htag] using hready1
  · simpa [hr, htag] using hready2

/-- Settles O49: a slot is taken when both its sources are ready, and the waiting one becomes so by the broadcast that makes its
producer ready. -/
theorem trueDependenciesAreHonoured : Obligations.TrueDependenciesAreHonoured := by
  intro s t u g hinv h hfault hu hv hsource hexec
  obtain ⟨hlive, -⟩ := flagsOk_iff.mp hinv.flags u
  have hnotExec : (s.robAt u).exec = false := by
    rw [Bool.eq_false_iff]
    intro he
    obtain ⟨h1, h2⟩ := (hlive hv).2 he
    rcases hsource with ⟨hr, -⟩ | ⟨hr, -⟩
    · exact Bool.false_ne_true (hr.symm.trans h1)
    · exact Bool.false_ne_true (hr.symm.trans h2)
  have hnotReady : (s.robAt u).ready = false := by
    rw [Bool.eq_false_iff]
    exact fun hr => Bool.false_ne_true (hnotExec.symm.trans ((hlive hv).1 hr))
  cases hhalted : s.halted with
  | true =>
    rw [eq_of_step_of_halted hhalted h] at hexec
    exact absurd (hnotExec.symm.trans hexec) (by decide)
  | false =>
    obtain ⟨s1, s2, p, s3, s4, s5, moved, m, hearly, hlate, hat, rfl⟩ := hinv.stages hhalted h hfault
    have hframe := fetch_frontEnd (nextItem s) hat (itemOk_nextItem s)
    have hslot := hearly.robAt_of_not_ready hnotReady
    rw [writtenSlot_of_valid hv] at hslot
    have hv2 : (s2.robAt u).valid = true := by rw [hslot]; exact hv
    have hexec2 : (s2.robAt u).exec = false := by rw [hslot]; exact hnotExec
    obtain ⟨-, h1, h2, -⟩ := (hlate.robAt hframe hv2).resolve_left fun hsame =>
      Bool.false_ne_true ((hsame ▸ hexec2).symm.trans hexec)
    have hwoken := hearly.woken hv hnotReady hsource h1 h2
    refine ⟨?_, holdsTag_iff.mp hwoken⟩
    have hproducer : (s.robAt g).valid = true ∧ (s.robAt g).ready = false := by
      obtain ⟨hp1, hp2⟩ := hinv.tags u hu hv
      rcases hsource with ⟨hr, htag⟩ | ⟨hr, htag⟩
      · obtain ⟨-, g', -, htag', hgv, hgr, -⟩ := hp1 hr
        obtain rfl : g = g' := Option.some.inj (htag.symm.trans htag')
        exact ⟨hgv, hgr⟩
      · obtain ⟨-, g', -, htag', hgv, hgr, -⟩ := hp2 hr
        obtain rfl : g = g' := Option.some.inj (htag.symm.trans htag')
        exact ⟨hgv, hgr⟩
    obtain ⟨hgv, hgr⟩ := hproducer
    have hg := hearly.robAt_of_not_ready hgr
    rw [writtenSlot_of_valid hgv, hwoken, Bool.or_true] at hg
    have hready2 : (s2.robAt g).ready = true := by rw [hg]
    have hgv2 : (s2.robAt g).valid = true := by rw [hg]; exact hgv
    rcases hlate.robAt hframe hgv2 with hsame | ⟨-, -, -, hset, -⟩
    · rw [hsame, hready2]
    · rw [hset, hready2]

end

end Sys2Proof.Machine
end

section
/-! PROOFS. One instruction over a tick (48_instruction_classes.md R258): outside the ROB the counts decide, in the ROB the slot
and the place of its copy. -/

namespace Sys2Proof.Machine

section
variable {s s1 s2 s3 s4 s5 t : State} {moved : List Inst} {p m v q : Nat} {ph : Phase} {c : Inst}

/-- A test of the ROB at a slot's number is the test of that slot. -/
theorem Inv.robHolds_slot (hinv : Inv s) (hv : (s.robAt v).valid = true) (hq : (s.robAt v).inst.seq = q)
    (pred : RobSlot → Bool) : robHolds s q pred = pred (s.robAt v) := by
  rw [Bool.eq_iff_iff, robHolds_iff hinv.shape]
  constructor
  · rintro ⟨u, -, hu, huq, hp⟩
    rwa [← hinv.robOk.slot_injective hu hv (huq.trans hq.symm)]
  · exact fun hp => ⟨v, hinv.robOk.slot_lt hv, hv, hq, hp⟩

theorem latchHolds_of_mem {latch : List Lane} (hc : c ∈ laneRecords latch) : latchHolds latch c.seq = true := by
  rw [latchHolds_iff, latchSeqs_eq_map]
  exact List.mem_map_of_mem hc

theorem exists_of_latchHolds {latch : List Lane} (h : latchHolds latch q = true) : ∃ c ∈ laneRecords latch, c.seq = q := by
  rwa [latchHolds_iff, latchSeqs_eq_map, List.mem_map] at h

/-- How far the boundaries between the places of an instruction move in a tick. -/
theorem boundaries_of_stages (h : Early s s1 s2 p) (h' : Late s2 s3 s4 s5 moved m)
    (hframe : Stage.fetch.Frame (decode s5) t) :
    t.retiredCount = s.retiredCount + p ∧ robCount t + p = robCount s + m ∧ m ≤ laneCount s.latchID ∧ p ≤ robCount s ∧
      laneCount s.latchID ≤ laneCount t.latchID + m ∧
      laneCount t.latchID + m ≤ laneCount s.latchID + laneCount s.latchFE := by
  obtain ⟨hFE2, hID2⟩ := h.latches
  obtain ⟨hFE5, hID4, -⟩ := h'.latchFE
  have hd := h'.frame
  unfold Stage.Frame at hframe
  have hret : t.retiredCount = s2.retiredCount := by rw [hframe, hd]
  have hrob : robCount t = robCount s5 := by rw [hframe, hd]; rfl
  have hID : t.latchID = (decode s5).latchID := by rw [hframe]
  have hcount := h'.issuedBy.count
  have hleft := h'.issuedBy.left
  have hdecoded := h'.decoded.count
  have hrest := h'.decoded.rest.length_le
  have hearly := h.robCount
  rw [h'.sameRecords.robCount] at hcount
  rw [hID4, hID2] at hleft
  rw [← laneCount_eq_length, ← laneCount_eq_length] at hrest
  rw [hFE5, hFE2] at hdecoded hrest
  rw [hret, hrob, hID, h.retiredCount]
  omega

/-- What travels after the tick is in execution after it. -/
theorem Inv.inExecution_of_travels (hinv : Inv s) (hv : (s.robAt v).valid = true) (hq : (s.robAt v).inst.seq = q)
    (hc : c ∈ travellers s) (hcq : c.seq = q) : inExecution (s.robAt v) = true := by
  rw [← hinv.robHolds_slot hv hq inExecution, ← hinv.travels_eq_robHolds, travels_iff]
  exact ⟨c, hc, hcq⟩

/-- A record of the execute latch has its own slot for a tag. -/
theorem Inv.tag_of_traveller (hinv : Inv s) (hc : c ∈ travellers s) (hv : (s.robAt v).valid = true)
    (hq : (s.robAt v).inst.seq = c.seq) : c.drTag = some v ∧ (s.robAt v).exec = true := by
  obtain ⟨w, -, htag, hwv, hexec, -, hseq, -⟩ := hinv.execOk.copies c hc
  obtain rfl := hinv.robOk.slot_injective hwv hv (hseq.trans hq.symm)
  exact ⟨htag, hexec⟩

/-- The records of the EXEQ and the execute latch after the tick. -/
theorem Inv.places_of_aged (hinvT : Inv t) (hc : c.aged ∈ exeqRecords t ∨ (c.aged ∈ laneRecords t.latchEX))
    (hv : (t.robAt v).valid = true) (hq : (t.robAt v).inst.seq = c.seq) :
    (inPhase t c.seq .executing = true ∧ 1 < c.wait) ∨ (inPhase t c.seq .finished = true ∧ c.wait ≤ 1) ∨
      inPhase t c.seq .executed = true := by
  have hslot := hinvT.inPhase_in_rob (hinvT.robHolds_slot hv hq)
  have hexec : inExecution (t.robAt v) = true := by
    refine hinvT.inExecution_of_travels (c := c.aged) hv hq ?_ rfl
    rcases hc with hc | hc
    · exact List.mem_append_left _ (List.mem_append_right _ hc)
    · exact List.mem_append_right _ hc
  rcases hc with hc | hc
  · by_cases hwait : 1 < c.wait
    · refine .inl ⟨(hslot _).mpr (.inr (.inr (.inr (.inl ⟨rfl, hexec, ?_⟩)))), hwait⟩
      exact exeqHolds_iff.mpr ⟨_, hc, rfl, decide_eq_true (Nat.sub_pos_of_lt hwait)⟩
    · refine .inr (.inl ⟨(hslot _).mpr (.inr (.inr (.inr (.inr (.inl ⟨rfl, hexec, ?_⟩))))), by omega⟩)
      exact exeqHolds_iff.mpr ⟨_, hc, rfl, beq_iff_eq.mpr (Nat.sub_eq_zero_of_le (by omega))⟩
  · refine .inr (.inr ((hslot _).mpr (.inr (.inr (.inr (.inr (.inr (.inl ⟨rfl, hexec, ?_⟩))))))))
    exact latchHolds_of_mem (c := c.aged) hc

section
variable (hinv : Inv s) (hinvT : Inv t) (h : Early s s1 s2 p) (h' : Late s2 s3 s4 s5 moved m)
  (hframe : Stage.fetch.Frame (decode s5) t)
include h h' hframe

theorem queue_of_stages : exeqRecords t = exeqRecords s3 ∧ t.latchEX = s3.latchEX ∧
    (exeqRecords s3 ++ moved).Perm
      ((exeqRecords s ++ (multis s.cfg s.latchSC).map (Inst.entering s.cfg)).map Inst.aged) ∧
    (laneRecords s3.latchEX).Perm (singles s.cfg s.latchSC ++ moved) := by
  have hd := h'.frame
  have hqueue := h'.executed.queue
  have hEX := h'.executed.latchEX
  have h2 := h.frame
  unfold Stage.Frame at hframe
  have hexeq : exeqRecords s2 = exeqRecords s := by rw [h2]; rfl
  have hSC : s2.latchSC = s.latchSC := by rw [h2]
  rw [hexeq, hSC, h.cfg] at hqueue
  rw [hSC, h.cfg] at hEX
  exact ⟨by rw [hframe, hd]; rfl, by rw [hframe, hd], hqueue, hEX⟩

/-- A record of the EXEQ is aged, and in the EXEQ or in the execute latch. -/
theorem aged_of_queue (hc : c ∈ exeqRecords s ++ (multis s.cfg s.latchSC).map (Inst.entering s.cfg)) :
    c.aged ∈ exeqRecords t ∨ c.aged ∈ laneRecords t.latchEX := by
  obtain ⟨hexeq, hEX, hqueue, hput⟩ := queue_of_stages h h' hframe
  rw [hexeq, hEX]
  rcases List.mem_append.mp (hqueue.symm.subset (List.mem_map_of_mem hc)) with hc | hc
  · exact .inl hc
  · exact .inr (hput.symm.subset (List.mem_append_right _ hc))

include hinv hinvT

/-- A slot that waits or is ready after the tick waits for less, or Schedule has taken it. -/
theorem successor_of_not_exec (hv : (s.robAt v).valid = true) (hexec : (s.robAt v).exec = false)
    (hready : (s.robAt v).ready = false) : inPhase t (s.robAt v).inst.seq .ready = true ∨
      inPhase t (s.robAt v).inst.seq .scheduled = true ∨
      (operandsReady s v = false ∧ inPhase t (s.robAt v).inst.seq .waiting = true) := by
  have hslot2 := h.robAt_of_not_ready hready
  rw [writtenSlot_of_valid hv] at hslot2
  have hnone : holdsTag s.latchEX (some v) = false := by
    rw [Bool.eq_false_iff, Ne, holdsTag_iff]
    rintro ⟨l, hl, hlv, htag⟩
    have hc : l.inst ∈ travellers s := List.mem_append_right _ (mem_laneRecords.mpr ⟨l, hl, hlv, rfl⟩)
    obtain ⟨w, -, htag', -, hwexec, -⟩ := hinv.execOk.copies _ hc
    obtain rfl : w = v := Option.some.inj (htag'.symm.trans htag)
    exact Bool.false_ne_true (hexec.symm.trans hwexec)
  rw [hnone, Bool.or_false] at hslot2
  have hv2 : (s2.robAt v).valid = true := by rw [hslot2]; exact hv
  have hq2 : (s2.robAt v).inst.seq = (s.robAt v).inst.seq := by rw [hslot2]
  rcases h'.robAt hframe hv2 with hsame | ⟨-, -, -, hset, hmem⟩
  · have hvT : (t.robAt v).valid = true := by rw [hsame, hv2]
    have hqT : (t.robAt v).inst.seq = (s.robAt v).inst.seq := by rw [hsame, hq2]
    have hslot := hinvT.inPhase_in_rob (hinvT.robHolds_slot hvT hqT)
    have hexecT : (t.robAt v).exec = false := by rw [hsame, hslot2]; exact hexec
    cases hsources : (t.robAt v).inst.src1Ready && (t.robAt v).inst.src2Ready with
    | true => exact .inl ((hslot _).mpr (.inr (.inl ⟨rfl, hexecT, hsources⟩)))
    | false =>
      refine .inr (.inr ⟨?_, (hslot _).mpr (.inl ⟨rfl, hexecT, by rw [hsources]; rfl⟩)⟩)
      rw [Bool.eq_false_iff, operandsReady, Ne, Bool.and_eq_true]
      rintro ⟨h1, h2⟩
      rw [hsame, hslot2] at hsources
      simp [h1, h2] at hsources
  · have hvT : (t.robAt v).valid = true := by rw [hset]; exact hv2
    have hqT : (t.robAt v).inst.seq = (s.robAt v).inst.seq := by rw [hset]; exact hq2
    refine .inr (.inl ((hinvT.inPhase_in_rob (hinvT.robHolds_slot hvT hqT) _).mpr (.inr (.inr (.inl ⟨rfl, ?_, ?_⟩)))))
    · rw [hset, hslot2]
      simp [inExecution, hready]
    · rw [← hq2]
      exact latchHolds_of_mem hmem

omit hinv hinvT in
/-- A slot in execution stays in use with its number; Writeback alone ends its execution. -/
theorem slot_of_exec (hv : (s.robAt v).valid = true) (hexec : (s.robAt v).exec = true)
    (hready : (s.robAt v).ready = false) : (t.robAt v).valid = true ∧ (t.robAt v).exec = true ∧
      (t.robAt v).inst.seq = (s.robAt v).inst.seq ∧ (t.robAt v).ready = holdsTag s.latchEX (some v) := by
  have hslot2 := h.robAt_of_not_ready hready
  rw [writtenSlot_of_valid hv, hready, Bool.false_or] at hslot2
  have hv2 : (s2.robAt v).valid = true := by rw [hslot2]; exact hv
  have hexec2 : (s2.robAt v).exec = true := by rw [hslot2]; exact hexec
  have hsame := (h'.robAt hframe hv2).resolve_right fun hand => Bool.false_ne_true (hand.1.symm.trans hexec2)
  rw [hsame]
  exact ⟨hv2, hexec2, by rw [hslot2], by rw [hslot2]⟩

/-- A completed slot retires or stays completed. -/
theorem successor_of_ready (hv : (s.robAt v).valid = true) (hexec : (s.robAt v).exec = true)
    (hready : (s.robAt v).ready = true) : inPhase t (s.robAt v).inst.seq .committed = true ∨
      inPhase t (s.robAt v).inst.seq .completed = true := by
  obtain ⟨k, hk, hplace, hseq⟩ := hinv.robOk.place_of_valid hv
  obtain ⟨hret, -⟩ := boundaries_of_stages h h' hframe
  by_cases hkp : k < p
  · exact .inl ((hinvT.inPhase_outside_rob (by omega) (.inl (by omega)) _).mpr (.inl ⟨rfl, by omega⟩))
  · have hslot1 : s1.robAt v = s.robAt v := by
      rw [h.retired.robAt, if_neg]
      · rfl
      · rintro ⟨j, hj, he⟩
        have hle := hinv.robOk.robCount_le
        have hcount := h.retired.count
        have hcount' : robCount s1 + p = robCount s := hcount
        exact absurd (fromHead_injective (by omega) (by omega) (hplace.trans he)) (by omega)
    have hslot2 := h.robAt_eq v
    rw [hslot1, writtenSlot_of_valid hv, hready, Bool.true_or] at hslot2
    have hv2 : (s2.robAt v).valid = true := by rw [hslot2]; exact hv
    have hexec2 : (s2.robAt v).exec = true := by rw [hslot2]; exact hexec
    have hsame := (h'.robAt hframe hv2).resolve_right fun hand => Bool.false_ne_true (hand.1.symm.trans hexec2)
    have hqT : (t.robAt v).inst.seq = (s.robAt v).inst.seq := by rw [hsame, hslot2]
    refine .inr ((hinvT.inPhase_in_rob (hinvT.robHolds_slot (hsame ▸ hv2) hqT) _).mpr ?_)
    refine .inr (.inr (.inr (.inr (.inr (.inr ⟨rfl, hsame ▸ hexec2, ?_⟩)))))
    rw [hsame, hslot2]

/-- The states a slot in the ROB may reach. -/
theorem successor_in_rob (hv : (s.robAt v).valid = true) (hph : inPhase s (s.robAt v).inst.seq ph = true) :
    ∃ ph' ∈ ph.successors, inPhase t (s.robAt v).inst.seq ph' = true := by
  obtain ⟨hlive, -⟩ := flagsOk_iff.mp hinv.flags v
  obtain ⟨hready, -⟩ := hlive hv
  have hfree (he : (s.robAt v).exec = false) : (s.robAt v).ready = false := by
    rw [Bool.eq_false_iff]
    exact fun hr => Bool.false_ne_true (he.symm.trans (hready hr))
  have hqueue {c : Inst} (hin : inExecution (s.robAt v) = true) (hcq : c.seq = (s.robAt v).inst.seq)
      (hc : c ∈ exeqRecords s ++ (multis s.cfg s.latchSC).map (Inst.entering s.cfg)) :
      (inPhase t (s.robAt v).inst.seq .executing = true ∧ 1 < c.wait) ∨
        (inPhase t (s.robAt v).inst.seq .finished = true ∧ c.wait ≤ 1) ∨
        inPhase t (s.robAt v).inst.seq .executed = true := by
    rw [inExecution, Bool.and_eq_true, Bool.not_eq_true'] at hin
    obtain ⟨hvT, -, hqT, -⟩ := slot_of_exec h h' hframe hv hin.1 hin.2
    rw [← hcq]
    exact hinvT.places_of_aged (aged_of_queue h h' hframe hc) hvT (hqT.trans hcq.symm)
  rcases (hinv.inPhase_in_rob (hinv.robHolds_slot hv rfl) ph).mp hph with ⟨rfl, he, -⟩ | ⟨rfl, he, hsources⟩ |
    ⟨rfl, hin, hplace⟩ | ⟨rfl, hin, hplace⟩ | ⟨rfl, hin, hplace⟩ | ⟨rfl, hin, hplace⟩ | ⟨rfl, he, hr⟩
  · rcases successor_of_not_exec hinv hinvT h h' hframe hv he (hfree he) with hT | hT | ⟨-, hT⟩
    · exact ⟨_, by simp [Phase.successors], hT⟩
    · exact ⟨_, by simp [Phase.successors], hT⟩
    · exact ⟨_, by simp [Phase.successors], hT⟩
  · rcases successor_of_not_exec hinv hinvT h h' hframe hv he (hfree he) with hT | hT | ⟨hnot, -⟩
    · exact ⟨_, by simp [Phase.successors], hT⟩
    · exact ⟨_, by simp [Phase.successors], hT⟩
    · exact absurd (hnot.symm.trans hsources) (by decide)
  · obtain ⟨c, hc, hcq⟩ := exists_of_latchHolds hplace
    by_cases hsingle : c.single s.cfg = true
    · obtain ⟨-, hEX, -, hput⟩ := queue_of_stages h h' hframe
      have hcT : c ∈ laneRecords t.latchEX := by
        rw [hEX]
        exact hput.symm.subset (List.mem_append_left _ (List.mem_filter.mpr ⟨hc, hsingle⟩))
      have hin' := hin
      rw [inExecution, Bool.and_eq_true, Bool.not_eq_true'] at hin'
      obtain ⟨hvT, -, hqT, -⟩ := slot_of_exec h h' hframe hv hin'.1 hin'.2
      refine ⟨.executed, by simp [Phase.successors], (hinvT.inPhase_in_rob (hinvT.robHolds_slot hvT hqT) _).mpr ?_⟩
      refine .inr (.inr (.inr (.inr (.inr (.inl ⟨rfl, ?_, ?_⟩)))))
      · exact hinvT.inExecution_of_travels hvT hqT (List.mem_append_right _ hcT) hcq
      · rw [← hcq]
        exact latchHolds_of_mem hcT
    · have hmulti : c ∈ multis s.cfg s.latchSC := List.mem_filter.mpr ⟨hc, by simpa using hsingle⟩
      have hlat := not_single_iff.mp (List.mem_filter.mp hmulti).2
      rcases hqueue hin (c := c.entering s.cfg) hcq (List.mem_append_right _ (List.mem_map_of_mem hmulti)) with
        ⟨hT, -⟩ | ⟨-, hle⟩ | hT
      · exact ⟨_, by simp [Phase.successors], hT⟩
      · have hle' : lat s.cfg c.op ≤ 1 := hle
        omega
      · exact ⟨_, by simp [Phase.successors], hT⟩
  · obtain ⟨c, hc, hcq, -⟩ := exeqHolds_iff.mp hplace
    rcases hqueue hin hcq (List.mem_append_left _ hc) with ⟨hT, -⟩ | ⟨hT, -⟩ | hT
    · exact ⟨_, by simp [Phase.successors], hT⟩
    · exact ⟨_, by simp [Phase.successors], hT⟩
    · exact ⟨_, by simp [Phase.successors], hT⟩
  · obtain ⟨c, hc, hcq, hzero⟩ := exeqHolds_iff.mp hplace
    rw [beq_iff_eq] at hzero
    rcases hqueue hin hcq (List.mem_append_left _ hc) with ⟨-, hwait⟩ | ⟨hT, -⟩ | hT
    · omega
    · exact ⟨_, by simp [Phase.successors], hT⟩
    · exact ⟨_, by simp [Phase.successors], hT⟩
  · obtain ⟨c, hc, hcq⟩ := exists_of_latchHolds hplace
    rw [inExecution, Bool.and_eq_true, Bool.not_eq_true'] at hin
    obtain ⟨hvT, heT, hqT, hrT⟩ := slot_of_exec h h' hframe hv hin.1 hin.2
    obtain ⟨htag, -⟩ := hinv.tag_of_traveller (List.mem_append_right _ hc) hv hcq.symm
    obtain ⟨l, hl, hlv, rfl⟩ := mem_laneRecords.mp hc
    rw [holdsTag_iff.mpr ⟨l, hl, hlv, htag⟩] at hrT
    refine ⟨.completed, by simp [Phase.successors], (hinvT.inPhase_in_rob (hinvT.robHolds_slot hvT hqT) _).mpr ?_⟩
    exact .inr (.inr (.inr (.inr (.inr (.inr ⟨rfl, heT, hrT⟩)))))
  · rcases successor_of_ready hinv hinvT h h' hframe hv he hr with hT | hT
    · exact ⟨_, by simp [Phase.successors], hT⟩
    · exact ⟨_, by simp [Phase.successors], hT⟩

omit hinv hinvT h in
/-- A slot that Issue has filled is not executing. -/
theorem exec_of_issued (hv : (t.robAt v).valid = true) (hv4 : (s4.robAt v).valid = false) : (t.robAt v).exec = false := by
  have hd := h'.frame
  unfold Stage.Frame at hframe
  have hsame : t.robAt v = s5.robAt v := by rw [State.robAt, hframe, hd]; rfl
  have hnew : (s5.robAt v).valid = true → (s5.robAt v).exec = false := by
    refine And.left ((path_issue h'.issue).keeps
      (P := fun u => ((u.robAt v).valid = true → (u.robAt v).exec = false) ∧ CoreOk u) (fun u w hmove hu => ?_)
      ⟨fun hv => absurd (hv4.symm.trans hv) (by decide), h'.core4⟩)
    obtain ⟨hexec, hcore⟩ := hu
    cases hmove with
    | issue hj hone =>
      refine ⟨fun hwv => ?_, hone.coreOk hj hcore⟩
      rw [hone.robAt hcore.backend.rob] at hwv ⊢
      split
      next => rfl
      next hne =>
        rw [if_neg hne] at hwv
        exact hexec hwv
  rw [hsame] at hv ⊢
  exact hnew hv

/-- The states an instruction outside the ROB may reach. -/
theorem successor_outside_rob (hpos : 1 ≤ q) (hout : q ≤ s.retiredCount ∨ s.retiredCount + robCount s < q)
    (hseq : s.lastSeq ≤ t.lastSeq) (hph : inPhase s q ph = true) :
    ∃ ph' ∈ ph.successors, inPhase t q ph' = true := by
  obtain ⟨hret, hrob, hm, hp, hID, hFE⟩ := boundaries_of_stages h h' hframe
  obtain ⟨-, -, hlast⟩ := hinv.front
  obtain ⟨-, -, hlastT⟩ := hinvT.front
  have houtT (hq : q ≤ t.retiredCount ∨ t.retiredCount + robCount t < q) := hinvT.inPhase_outside_rob hpos hq
  rcases (hinv.inPhase_outside_rob hpos hout ph).mp hph with ⟨rfl, hq⟩ | ⟨rfl, hlow, hhigh⟩ | ⟨rfl, hlow, hhigh⟩ |
    ⟨rfl, hlow⟩
  · exact ⟨.committed, by simp [Phase.successors], (houtT (.inl (by omega)) _).mpr (.inl ⟨rfl, by omega⟩)⟩
  · by_cases hin : t.retiredCount + robCount t < q
    · refine ⟨.decoded, by simp [Phase.successors], (houtT (.inr hin) _).mpr (.inr (.inl ⟨rfl, hin, by omega⟩))⟩
    · obtain ⟨k, hk⟩ : ∃ k, q = t.retiredCount + 1 + k := ⟨q - (t.retiredCount + 1), by omega⟩
      have hkc : k < robCount t := by omega
      have hv := (hinvT.robOk.valid_fromHead (hkc.trans_le hinvT.robOk.robCount_le)).mpr hkc
      have hq := (hinvT.robOk.seq_fromHead hkc).trans hk.symm
      have hv4 : (s4.robAt ((t.robHead + k) % t.cfg.robSize)).valid = false := by
        rw [Bool.eq_false_iff]
        intro hv4
        have hd := h'.frame
        unfold Stage.Frame at hframe
        have hsame : t.robAt ((t.robHead + k) % t.cfg.robSize) = s4.robAt ((t.robHead + k) % t.cfg.robSize) := by
          rw [← h'.robAt_issue hv4, State.robAt, hframe, hd]
          rfl
        obtain ⟨j, hj, -, hjq⟩ := h'.core4.backend.rob.place_of_valid hv4
        rw [h'.sameRecords.robCount] at hj
        rw [h'.sameRecords.retiredCount] at hjq
        have hcount := h.robCount
        have hretired := h.retiredCount
        rw [slotFromHead, hsame] at hq
        omega
      have hexec := exec_of_issued h' hframe hv hv4
      have hslot := hinvT.inPhase_in_rob (hinvT.robHolds_slot hv hq)
      cases hsources : (t.robAt ((t.robHead + k) % t.cfg.robSize)).inst.src1Ready &&
          (t.robAt ((t.robHead + k) % t.cfg.robSize)).inst.src2Ready with
      | true => exact ⟨.ready, by simp [Phase.successors], (hslot _).mpr (.inr (.inl ⟨rfl, hexec, hsources⟩))⟩
      | false => exact ⟨.waiting, by simp [Phase.successors], (hslot _).mpr (.inl ⟨rfl, hexec, by rw [hsources]; rfl⟩)⟩
  · by_cases hin : q ≤ t.retiredCount + robCount t + laneCount t.latchID
    · exact ⟨.decoded, by simp [Phase.successors], (houtT (.inr (by omega)) _).mpr (.inr (.inl ⟨rfl, by omega, hin⟩))⟩
    · exact ⟨.fetched, by simp [Phase.successors],
        (houtT (.inr (by omega)) _).mpr (.inr (.inr (.inl ⟨rfl, by omega, by omega⟩)))⟩
  · by_cases hin : q ≤ t.lastSeq
    · exact ⟨.fetched, by simp [Phase.successors],
        (houtT (.inr (by omega)) _).mpr (.inr (.inr (.inl ⟨rfl, by omega, hin⟩)))⟩
    · exact ⟨.unfetched, by simp [Phase.successors],
        (houtT (.inr (by omega)) _).mpr (.inr (.inr (.inr ⟨rfl, by omega⟩)))⟩

end

/-- In a machine that has stopped everything has retired or was never fetched. -/
theorem Inv.successor_of_halted (hinv : Inv s) (hhalted : s.halted = true) (hpos : 1 ≤ q) (hph : inPhase s q ph = true) :
    ph ∈ ph.successors := by
  obtain ⟨-, -, -, hrob, -⟩ := haltedMachineIsEmpty s hinv hhalted
  rcases (hinv.inPhase_outside_rob hpos (by omega) ph).mp hph with ⟨rfl, -⟩ | ⟨rfl, -⟩ | ⟨rfl, -⟩ | ⟨rfl, -⟩
  all_goals simp [Phase.successors]

/-- Settles O52: the state after the tick is one of the successors, and there is but one. -/
theorem everyInstructionMovesForward : Obligations.EveryInstructionMovesForward := by
  intro s t q ph ph' hinv hstep hfault hpos hph hph'
  have hinvT := everyStepKeepsTheInvariant s t hinv hstep hfault
  obtain ⟨only, -, honly⟩ := everyInstructionIsInOnePhase t q hinvT hpos
  obtain rfl := honly ph' hph'
  suffices hsucc : ∃ next ∈ ph.successors, inPhase t q next = true by
    obtain ⟨next, hmem, hnext⟩ := hsucc
    rwa [← honly next hnext]
  cases hhalted : s.halted with
  | true =>
    rw [eq_of_step_of_halted hhalted hstep]
    exact ⟨ph, hinv.successor_of_halted hhalted hpos hph, hph⟩
  | false =>
    obtain ⟨s1, s2, p, s3, s4, s5, moved, m, hearly, hlate, hat, ht⟩ := hinv.stages hhalted hstep hfault
    have hframe := fetch_frontEnd (nextItem s) hat (itemOk_nextItem s)
    rw [← ht] at hframe
    have hseq : s.lastSeq ≤ t.lastSeq := by
      have hcounters := counters_fetchLanes (List.range (decode s5).cfg.pipeWidth) (some (nextItem s)) (decode s5)
      rw [ht, fetch, ← hat.lastSeq]
      exact hcounters.1
    by_cases hout : q ≤ s.retiredCount ∨ s.retiredCount + robCount s < q
    · exact successor_outside_rob hinv hinvT hearly hlate hframe hpos hout hseq hph
    · obtain ⟨k, hk⟩ : ∃ k, q = s.retiredCount + 1 + k := ⟨q - (s.retiredCount + 1), by omega⟩
      have hkc : k < robCount s := by omega
      have hv := (hinv.robOk.valid_fromHead (hkc.trans_le hinv.robOk.robCount_le)).mpr hkc
      have hq := (hinv.robOk.seq_fromHead hkc).trans hk.symm
      rw [slotFromHead] at hv hq
      rw [← hq] at hph ⊢
      exact successor_in_rob hinv hinvT hearly hlate hframe hv hph

end

end Sys2Proof.Machine
end

section
/-! PROOFS. A configuration large enough (42_exeq.md R159, 70_reset_and_hazards.md R346): with every countdown running and at
most PIPE_WIDTH of them equal there is a slot for all that Execute brings and a lane for all that is finished. -/

namespace Sys2Proof.Machine

/-- How many records wait for `w` more cycles. -/
def waiting (w : Nat) (records : List Inst) : Nat := records.countP (fun c => c.wait == w)

section
variable {α : Type} {s s1 s2 s3 s4 s5 t : State} {moved records : List Inst} {n p m w : Nat} {cfg : Config}

theorem countP_exeq_wait (w : Nat) (s : State) :
    s.exeq.countP (fun x => x.valid && x.inst.wait == w) = waiting w (exeqRecords s) := by
  rw [waiting, exeqRecords, List.countP_map, List.countP_filter]
  refine List.countP_congr fun x _ => ?_
  simp [and_comm]

/-- `Spread` on the records of the EXEQ. -/
theorem spread_iff : Spread s ↔ (∀ c ∈ exeqRecords s, 0 < c.wait) ∧
    ∀ w < s.cfg.loadLatency, waiting w (exeqRecords s) ≤ s.cfg.pipeWidth := by
  simp only [Spread, countP_exeq_wait]
  refine and_congr_left fun _ => ⟨fun h c hc => ?_, fun h x hx hv => h _ (mem_exeqRecords.mpr ⟨x, hx, hv, rfl⟩)⟩
  obtain ⟨x, hx, hv, rfl⟩ := mem_exeqRecords.mp hc
  exact h x hx hv

theorem countP_le_countP_add {l : List α} {f g h : α → Bool} (hfg : ∀ a, f a = true → g a = true ∨ h a = true) :
    l.countP f ≤ l.countP g + l.countP h := by
  induction l with
  | nil => simp
  | cons a l ih =>
    simp only [List.countP_cons]
    by_cases hf : f a = true
    · rcases hfg a hf with hg | hh
      · rw [if_pos hf, if_pos hg]
        omega
      · rw [if_pos hf, if_pos hh]
        omega
    · rw [if_neg hf]
      omega

/-- Running countdowns below `n + 1`, at most `k` of each, are at most `k * n` together. -/
theorem countP_le_mul {k : Nat} (hk : ∀ w, 1 ≤ w → w ≤ n → waiting w records ≤ k) :
    records.countP (fun c => decide (1 ≤ c.wait) && decide (c.wait ≤ n)) ≤ k * n := by
  induction n with
  | zero => simp only [List.countP_eq_zero.mpr fun (c : Inst) _ => show ¬(decide (1 ≤ c.wait) && decide (c.wait ≤ 0)) = true by
      simp; omega, Nat.zero_le]
  | succ n ih =>
    calc records.countP (fun c => decide (1 ≤ c.wait) && decide (c.wait ≤ n + 1))
        ≤ records.countP (fun c => decide (1 ≤ c.wait) && decide (c.wait ≤ n)) + waiting (n + 1) records :=
          countP_le_countP_add fun c hc => by
            simp only [Bool.and_eq_true, decide_eq_true_eq, beq_iff_eq] at hc ⊢
            omega
      _ ≤ k * n + k := Nat.add_le_add (ih fun w h1 h2 => hk w h1 (by omega)) (hk _ (by omega) (Nat.le_refl _))
      _ = k * (n + 1) := (Nat.mul_succ k n).symm

theorem lat_of_multi {op : OpClass} (h : 1 < lat cfg op) : lat cfg op = cfg.loadLatency := by
  rw [lat_eq_ite] at h ⊢
  split at h
  next hld => rw [if_pos hld]
  next => omega

/-- A spread EXEQ has a free slot for every lane of the schedule latch. -/
theorem Inv.demand_le_free_of_spread (hinv : Inv s) (hsized : Sized s.cfg) (hspread : Spread s) :
    exeqDemand s ≤ exeqFree s := by
  obtain ⟨hsize, -⟩ := hsized
  obtain ⟨hrunning, hcount⟩ := spread_iff.mp hspread
  have hshaped := wellShaped_iff.mp hinv.shape
  have hlatency := s.cfg.one_le_loadLatency
  have hlength := length_exeqRecords s
  rw [hshaped.exeqLength] at hlength
  have hdemand : exeqDemand s ≤ s.cfg.pipeWidth := hshaped.latchSC.length ▸ List.countP_le_length
  have hused : (exeqRecords s).length ≤ s.cfg.pipeWidth * (s.cfg.loadLatency - 1) := by
    have hall : (exeqRecords s).countP (fun c => decide (1 ≤ c.wait) && decide (c.wait ≤ s.cfg.loadLatency - 1)) =
        (exeqRecords s).length := List.countP_eq_length.mpr fun c hc => by
      obtain ⟨-, hwait⟩ := countdownOk_iff.mp hinv.countdown c hc
      have hle := lat_le_loadLatency s.cfg c.op
      have hpos := hrunning c hc
      simp only [Bool.and_eq_true, decide_eq_true_eq]
      omega
    rw [← hall]
    exact countP_le_mul fun w h1 h2 => hcount w (by omega)
  have hmul : s.cfg.pipeWidth * (s.cfg.loadLatency - 1) + s.cfg.pipeWidth = s.cfg.pipeWidth * s.cfg.loadLatency := by
    rw [← Nat.mul_succ]
    congr 1
    omega
  omega

theorem waiting_append (w : Nat) (a b : List Inst) : waiting w (a ++ b) = waiting w a + waiting w b := List.countP_append

theorem waiting_perm {a b : List Inst} (h : a.Perm b) (w : Nat) : waiting w a = waiting w b := h.countP_eq _

theorem waiting_aged (hrunning : ∀ c ∈ records, 0 < c.wait) (w : Nat) :
    waiting w (records.map Inst.aged) = waiting (w + 1) records := by
  rw [waiting, waiting, List.countP_map]
  refine List.countP_congr fun c hc => ?_
  have hpos := hrunning c hc
  simp only [Function.comp, Inst.aged, beq_iff_eq]
  omega

/-- Every multi-cycle record enters at LOAD_LATENCY. -/
theorem waiting_entering {latch : List Lane} (w : Nat) : waiting w ((multis cfg latch).map (Inst.entering cfg)) =
    if w = cfg.loadLatency then (multis cfg latch).length else 0 := by
  rw [waiting, List.countP_map]
  have hlat : ∀ c ∈ multis cfg latch, ((fun c : Inst => c.wait == w) ∘ Inst.entering cfg) c = (w == cfg.loadLatency) := by
    intro c hc
    have hmulti := lat_of_multi (not_single_iff.mp (List.mem_filter.mp hc).2)
    simp only [Function.comp, Inst.entering, hmulti]
    exact Bool.beq_comm
  split
  next hw =>
    exact List.countP_eq_length.mpr fun c hc => by rw [hlat c hc, hw]; exact beq_self_eq_true _
  next hw =>
    exact List.countP_eq_zero.mpr fun c hc => by rw [hlat c hc, beq_iff_eq]; exact hw

/-- Execute keeps the EXEQ spread: what reaches 0 finds a lane, and what enters starts at the top. -/
theorem Executed.spread (h : Executed s t moved) (hsized : Sized s.cfg) (hwidths : WidthsOk s)
    (hcountdown : CountdownOk s) (hspread : Spread s) : Spread t := by
  obtain ⟨-, hwb⟩ := hsized
  rw [spread_iff] at hspread ⊢
  obtain ⟨hrunning, hcount⟩ := hspread
  have hlatency := s.cfg.one_le_loadLatency
  have hmultis : (multis s.cfg s.latchSC).length ≤ s.cfg.pipeWidth := by
    rw [← exeqDemand_eq, ← hwidths.latchSC]
    exact List.countP_le_length
  have hsingles : (singles s.cfg s.latchSC).length ≤ s.cfg.pipeWidth :=
    (List.length_filter_le _ _).trans (by rw [← laneCount_eq_length, ← hwidths.latchSC]; exact List.countP_le_length)
  have hentering : ∀ c ∈ exeqRecords s ++ (multis s.cfg s.latchSC).map (Inst.entering s.cfg), 0 < c.wait := by
    intro c hc
    rcases List.mem_append.mp hc with hc | hc
    · exact hrunning c hc
    · obtain ⟨d, -, rfl⟩ := List.mem_map.mp hc
      exact lat_pos _ _
  have htop : waiting s.cfg.loadLatency (exeqRecords s) = 0 := List.countP_eq_zero.mpr fun c hc => by
    obtain ⟨-, hwait⟩ := countdownOk_iff.mp hcountdown c hc
    have hle := lat_le_loadLatency s.cfg c.op
    rw [beq_iff_eq]
    omega
  have hall (w : Nat) (hw : w < s.cfg.loadLatency) : waiting w (exeqRecords t) + waiting w moved ≤ s.cfg.pipeWidth := by
    rw [← waiting_append, waiting_perm h.queue, waiting_aged hentering, waiting_append, waiting_entering]
    split
    next he => rw [he, htop, Nat.zero_add]; exact hmultis
    next hne => exact hcount (w + 1) (by omega)
  have hmoved : waiting 0 moved = moved.length := List.countP_eq_length.mpr fun c hc => by rw [h.finished c hc]; rfl
  have hzero := hall 0 (by omega)
  refine ⟨fun c hc => ?_, fun w hw => ?_⟩
  · rcases h.stop with hnone | hfull
    · exact Nat.pos_of_ne_zero (hnone c hc)
    · have hEX := h.latchEX.length_eq
      have hlanes : laneCount t.latchEX = t.latchEX.length := List.countP_eq_length.mpr hfull
      rw [List.length_append, ← laneCount_eq_length, hlanes, h.lengthEX, hwidths.latchEX] at hEX
      refine Nat.pos_of_ne_zero fun hwait => ?_
      have hpos : 0 < waiting 0 (exeqRecords t) := List.countP_pos_iff.mpr ⟨c, hc, by rw [hwait]; rfl⟩
      omega
  · rw [h.frame.cfg] at hw ⊢
    have := hall w hw
    omega

/-- Settles O50: the EXEQ has the room, and Execute keeps it spread. -/
theorem sizedConfigurationNeverFaults : Obligations.SizedConfigurationNeverFaults := by
  intro s hinv hsized hspread
  have hstep := step_eq_next hinv.shape
  have hroom := hinv.demand_le_free_of_spread hsized hspread
  cases hhalted : s.halted with
  | true =>
    have hsame := eq_of_step_of_halted hhalted hstep
    exact ⟨_, hstep, by rw [hsame]; exact hinv.noFault, by rw [hsame]; exact hspread⟩
  | false =>
    have hfault := hinv.fault_tick hhalted (itemOk_nextItem s)
    rw [if_neg (by omega)] at hfault
    refine ⟨_, hstep, hfault, ?_⟩
    obtain ⟨s1, s2, p, s3, s4, s5, moved, m, hearly, hlate, hat, ht⟩ := hinv.stages hhalted hstep hfault
    have hframe := fetch_frontEnd (nextItem s) hat (itemOk_nextItem s)
    rw [← ht] at hframe
    obtain ⟨hqueue, -⟩ := queue_of_stages hearly hlate hframe
    have h2 := hearly.frame
    have hspread3 := hlate.executed.spread (by rw [hearly.cfg]; exact hsized) hearly.core2.backend.widths
      (by rw [h2]; exact hinv.countdown) (by rw [h2]; exact hspread)
    have hcfg : (tick (nextItem s) s).cfg = s3.cfg := by
      rw [hframe.cfg, hat.cfg, ← hearly.cfg, hlate.executed.frame.cfg]
    rw [spread_iff] at hspread3 ⊢
    rw [hqueue, hcfg]
    exact hspread3

end

end Sys2Proof.Machine
end

section
/-! PROOFS. Every run ends (49_properties.md section 8): a measure of what is still to come and, where a tick does nothing of
that, of what is still to execute. -/

namespace Sys2Proof.Machine

/-- How many slots are executing or done. -/
def execCount (s : State) : Nat := s.rob.countP (fun x => x.exec)

/-- What is still to be read, decoded, issued, scheduled and retired. -/
def toCome (s : State) : Nat :=
  (if s.eosSeen then 0 else 1) + 5 * (s.trace.length - s.tracePos) + 4 * laneCount s.latchFE + 3 * laneCount s.latchID +
    (robCount s - execCount s) + robCount s

/-- What the travelling copies have before them. -/
def toExecute (s : State) : Nat :=
  ((laneRecords s.latchSC).map (fun c => 3 + lat s.cfg c.op)).sum + ((exeqRecords s).map (fun c => 2 + c.wait)).sum +
    laneCount s.latchEX

section
variable {s s1 s2 s3 s4 s5 t u : State} {moved : List Inst} {n p m v g j k : Nat} {x : Inst}

/-! ## The executing slots over a tick -/

theorem execCount_congr (hlength : t.rob.length = s.rob.length) (hexec : ∀ u, (t.robAt u).exec = (s.robAt u).exec) :
    execCount t = execCount s := by
  have hmap : t.rob.map (fun x => x.exec) = s.rob.map (fun x => x.exec) := by
    refine List.ext_getElem (by simp [hlength]) fun u hu hu' => ?_
    simp only [List.length_map] at hu hu'
    simpa [State.robAt, hu, hu'] using hexec u
  calc execCount t = (t.rob.map (fun x => x.exec)).countP id := by simp [execCount, List.countP_map]
    _ = execCount s := by simp [hmap, execCount, List.countP_map]

theorem execCount_le (hs : FlagsOk s) : execCount s ≤ robCount s :=
  List.countP_mono_left fun x hx hexec => by
    by_contra hv
    obtain ⟨-, hdead⟩ := hs x hx
    rw [(hdead (Bool.not_eq_true _ ▸ hv)).1] at hexec
    cases hexec

theorem Retired.execCount (h : Retired s t) (hs : FlagsOk s) : execCount t + 1 = execCount s := by
  have hlt := lt_length_of_slot_valid h.headValid
  obtain ⟨hlive, -⟩ := flagsOk_iff.mp hs s.robHead
  have hexec := (hlive h.headValid).1 h.headReady
  rw [State.robAt, List.getD_eq_getElem _ _ hlt] at hexec
  have hpos : 0 < s.rob.countP (fun x => x.exec) := List.countP_pos_iff.mpr ⟨_, List.getElem_mem hlt, hexec⟩
  rw [Machine.execCount, Machine.execCount, h.rob, List.countP_set hlt, hexec]
  simp only [if_true, Bool.false_eq_true, if_false]
  omega

theorem Issued.execCount (h : Issued s t j x) (hrob : RobOk s) (hs : FlagsOk s) : execCount t = execCount s := by
  refine execCount_congr (by rw [h.rob, List.length_set]) fun u => ?_
  rw [h.robAt hrob]
  split
  next hu =>
    obtain ⟨-, hdead⟩ := flagsOk_iff.mp hs s.robTail
    rw [hu, (hdead h.tailFree).1]
  next => rfl

theorem Early.execCount (h : Early s s1 s2 p) (hs : CoreOk (counted s)) : execCount s2 + p = execCount s := by
  have hcommit : CoreOk s1 ∧ Machine.execCount s1 + s1.retiredCount = Machine.execCount s + s.retiredCount :=
    commit_keeps (P := fun u => CoreOk u ∧ Machine.execCount u + u.retiredCount = Machine.execCount s + s.retiredCount)
      (fun _ hu => hu.1.backend.rob) (fun u v hr hu => by
        have hone := hr.execCount hu.1.backend.exec.flags
        have hret := hr.retiredCount
        exact ⟨hr.coreOk hu.1, by have := hu.2; omega⟩) ⟨hs, rfl⟩ h.commit
  have hwriteback : Machine.execCount s2 = Machine.execCount s1 :=
    writeback_keeps (P := fun u => Machine.execCount u = Machine.execCount s1)
      (fun u v _ _ hw hu => (execCount_congr hw.robLength hw.exec_eq).trans hu) rfl h.writeback
  have hret : s1.retiredCount = s.retiredCount + p := h.retired.retiredCount
  obtain ⟨-, hcount⟩ := hcommit
  omega

/-- Schedule fills an empty latch, one lane for each slot it takes. -/
theorem Late.execCount (h : Late s2 s3 s4 s5 moved m) (hempty : ∀ i, (s3.scAt i).valid = false) :
    execCount s5 = execCount s2 + laneCount s4.latchSC := by
  have hrob : Machine.execCount s3 = Machine.execCount s2 := by
    rw [Machine.execCount, (carried_execute h.execute).rob, Machine.execCount]
  have hcount := h.scheduled.count
  rw [laneCount_eq_zero hempty] at hcount
  have hissue : Machine.execCount s5 = Machine.execCount s4 :=
    And.left <| (path_issue h.issue).keeps (P := fun u => Machine.execCount u = Machine.execCount s4 ∧ CoreOk u)
      (fun u v hmove hu => by
        obtain ⟨hu, hcore⟩ := hu
        cases hmove with
        | issue hj hone =>
          exact ⟨(hone.execCount hcore.backend.rob hcore.backend.exec.flags).trans hu, hone.coreOk hj hcore⟩)
      ⟨rfl, h.core4⟩
  rw [hissue]
  rw [Machine.execCount] at hrob ⊢
  omega

/-! ## What is still to execute -/

theorem sum_map_perm {a b : List Inst} (h : a.Perm b) (f : Inst → Nat) : (a.map f).sum = (b.map f).sum :=
  (h.map f).sum_eq

theorem sum_aged (records : List Inst) : ((records.map Inst.aged).map (fun c => 2 + c.wait)).sum +
    records.countP (fun c => decide (0 < c.wait)) = (records.map (fun c => 2 + c.wait)).sum := by
  induction records with
  | nil => rfl
  | cons c records ih =>
    simp only [List.map_cons, List.sum_cons, List.countP_cons, Inst.aged, decide_eq_true_eq] at ih ⊢
    split <;> omega

theorem two_mul_length_le_sum (records : List Inst) : 2 * records.length ≤ (records.map (fun c => 2 + c.wait)).sum := by
  induction records with
  | nil => simp
  | cons c records ih =>
    simp only [List.map_cons, List.sum_cons, List.length_cons] at ih ⊢
    omega

theorem length_le_sum_lat (cfg : Config) (records : List Inst) :
    3 * records.length ≤ (records.map (fun c => 3 + lat cfg c.op)).sum := by
  induction records with
  | nil => simp
  | cons c records ih =>
    simp only [List.map_cons, List.sum_cons, List.length_cons] at ih ⊢
    omega

theorem sum_entering (cfg : Config) (records : List Inst) :
    ((records.map (Inst.entering cfg)).map (fun c => 2 + c.wait)).sum + records.length =
      (records.map (fun c => 3 + lat cfg c.op)).sum := by
  induction records with
  | nil => rfl
  | cons c records ih =>
    simp only [List.map_cons, List.sum_cons, List.length_cons, Inst.entering] at ih ⊢
    omega

/-- Execute takes from what is still to execute one for each record it moves or ages. -/
theorem Executed.toExecute (h : Executed s t moved) (hEX : ∀ l ∈ s.latchEX, l.valid = false) :
    toExecute t + moved.length + (multis s.cfg s.latchSC).length + (singles s.cfg s.latchSC).length +
      (exeqRecords s).countP (fun c => decide (0 < c.wait)) ≤ toExecute s := by
  have hsplit : (singles s.cfg s.latchSC ++ multis s.cfg s.latchSC).Perm (laneRecords s.latchSC) :=
    List.filter_append_perm _ _
  have hSC := sum_map_perm hsplit (fun c => 3 + lat s.cfg c.op)
  have hqueue := sum_map_perm h.queue (fun c => 2 + c.wait)
  have haged := sum_aged (exeqRecords s ++ (multis s.cfg s.latchSC).map (Inst.entering s.cfg))
  have hentering := sum_entering s.cfg (multis s.cfg s.latchSC)
  have hsingles := length_le_sum_lat s.cfg (singles s.cfg s.latchSC)
  have hmoved := two_mul_length_le_sum moved
  have hlanes := h.latchEX.length_eq
  have hnone : laneRecords t.latchSC = [] := laneRecords_of_all_invalid fun l hl => by
    rw [h.latchSC] at hl
    obtain ⟨l', -, rfl⟩ := List.mem_map.mp hl
    rfl
  have hnoEX : laneCount s.latchEX = 0 := by rw [laneCount_eq_length, laneRecords_of_all_invalid hEX]; rfl
  rw [List.length_append, ← laneCount_eq_length] at hlanes
  simp only [List.map_append, List.sum_append, List.countP_append] at hSC hqueue haged
  rw [Machine.toExecute, Machine.toExecute, hnone, hlanes, hnoEX, List.map_nil, List.sum_nil]
  omega

/-- Where Execute takes nothing, nothing was there. -/
theorem Executed.idle (h : Executed s t moved) (hwidth : 0 < s.latchEX.length)
    (hmoved : moved = []) (hsingles : (singles s.cfg s.latchSC).length = 0)
    (hwait : (exeqRecords s).countP (fun c => decide (0 < c.wait)) = 0) : exeqRecords s = [] := by
  refine List.eq_nil_iff_forall_not_mem.mpr fun c hc => ?_
  have hzero : c.wait = 0 := by
    have hnot := List.countP_eq_zero.mp hwait c hc
    simpa using hnot
  have haged : c.aged ∈ exeqRecords t := by
    have hmem := h.queue.symm.subset (List.mem_map_of_mem (List.mem_append_left _ hc))
    rwa [hmoved, List.append_nil] at hmem
  rcases h.stop with hnone | hfull
  · refine hnone _ haged ?_
    rw [Inst.aged, hzero]
  · have hlanes := h.latchEX.length_eq
    have hall : laneCount t.latchEX = t.latchEX.length := List.countP_eq_length.mpr hfull
    rw [List.length_append, ← laneCount_eq_length, hall, h.lengthEX, hsingles, hmoved] at hlanes
    rw [hlanes] at hwidth
    cases hwidth

/-! ## Every tick gets on -/

/-- What the tick has read does not come back, and what it decodes, issues, schedules and retires is off the measure. -/
theorem toCome_stages (h : Early s s1 s2 p) (h' : Late s2 s3 s4 s5 moved m) (hcore : CoreOk (counted s))
    (hframe : Stage.fetch.Frame (decode s5) t)
    (hfetch : (if t.eosSeen then 0 else 1) + 5 * (t.trace.length - t.tracePos) + 4 * laneCount t.latchFE + n ≤
      (if s.eosSeen then 0 else 1) + 5 * (s.trace.length - s.tracePos) + 4 * laneCount (decode s5).latchFE) :
    toCome t + n + p + m + laneCount t.latchSC + laneCount s.latchFE ≤ toCome s + laneCount (decode s5).latchFE := by
  obtain ⟨hret, hrob, hm, hp, hID, hFE⟩ := boundaries_of_stages h h' hframe
  obtain ⟨hFE2, hID2⟩ := h.latches
  obtain ⟨hFE5, hID4, -⟩ := h'.latchFE
  have hempty := execute_empties_latchSC h.core2.backend.widths (fun i => by
    exact writeback_empties_latchEX h.core1.backend.widths.latchEX h.writeback i) h'.execute
  have hexec := h'.execCount hempty
  have hexec2 := h.execCount hcore
  have hle := execCount_le h'.core5.backend.exec.flags
  have hle0 := execCount_le hcore.backend.exec.flags
  have hd := h'.frame
  have hdecoded := h'.decoded.count
  have hleft := h'.issuedBy.left
  unfold Stage.Frame at hframe
  have hrobT : robCount t = robCount s5 := by rw [hframe, hd]; rfl
  have hexecT : execCount t = execCount s5 := by rw [hframe, hd]; rfl
  have hSC : t.latchSC = s4.latchSC := by rw [hframe, hd]
  have hIDT : t.latchID = (decode s5).latchID := by rw [hframe]
  have hcounted : execCount (counted s) = execCount s ∧ robCount (counted s) = robCount s := ⟨rfl, rfl⟩
  rw [hcounted.1, hcounted.2] at hle0
  rw [hID4, hID2] at hleft
  rw [hFE5, hFE2] at hdecoded
  rw [toCome, toCome, hexecT, hSC]
  rw [hIDT] at hID hFE ⊢
  rw [hrobT] at hrob ⊢
  omega

/-- Reading takes from the measure, and with a free lane and the input not ended something is read. -/
theorem toCome_fetch (h : AtFetch s u) (hstream : (fetch (nextItem s) u).tracePos ≤ s.trace.length) : ∃ n,
    (if (fetch (nextItem s) u).eosSeen then 0 else 1) +
        5 * ((fetch (nextItem s) u).trace.length - (fetch (nextItem s) u).tracePos) +
        4 * laneCount (fetch (nextItem s) u).latchFE + n ≤
      (if s.eosSeen then 0 else 1) + 5 * (s.trace.length - s.tracePos) + 4 * laneCount u.latchFE ∧
    (n = 0 → s.eosSeen = true ∨ fetchRoom s = false) := by
  have hlanes {n m : Nat} {v : State} (hv : FilledBy (Machine.nextItem s) u n m v) :
      laneCount v.latchFE = laneCount u.latchFE + m := by
    have hlength := hv.records.length_eq
    rwa [List.length_append, List.length_map, List.length_range, ← laneCount_eq_length, ← laneCount_eq_length] at hlength
  cases heos : s.eosSeen with
  | true =>
    rw [h.fetch_ended heos, h.eosSeen, heos, h.trace, h.tracePos]
    exact ⟨0, Nat.le_refl _, fun _ => .inl rfl⟩
  | false =>
    rcases h.fetch_cases heos (Machine.nextItem s) with ⟨m, hv⟩ | ⟨n, -, m, v, hended⟩
    · have htrace : (fetch (Machine.nextItem s) u).trace = s.trace := by rw [hv.frame]; exact h.trace
      refine ⟨m, ?_, fun hm => .inr ?_⟩
      · rw [hv.tracePos, h.tracePos] at hstream
        rw [hv.eosSeen, h.eosSeen, heos, htrace, hv.tracePos, h.tracePos, hlanes hv]
        omega
      · rw [Bool.eq_false_iff]
        intro hroom
        obtain ⟨k, hk, hfree⟩ := h.free_lane hroom
        have := hv.pos hk hfree
        omega
    · obtain ⟨hend, -, -, hpos, -, hFE⟩ := hended.eqs
      have htrace : (fetch (Machine.nextItem s) u).trace = s.trace := by
        rw [hended.eq, endAt, hended.filled.frame]
        exact h.trace
      have hcount := hlanes hended.filled
      refine ⟨m + 1, ?_, fun hm => absurd hm (Nat.succ_ne_zero m)⟩
      rw [hpos, h.tracePos] at hstream
      rw [hend, htrace, hpos, h.tracePos, hFE, hcount]
      split at hstream <;> simp only [if_true, Bool.false_eq_true, if_false] <;> omega

/-- Nothing is left anywhere where a tick does nothing. -/
theorem Inv.empty_of_idle (hinv : Inv s) (h : Early s s1 s2 p) (h' : Late s2 s3 s4 s5 moved m)
    (hp : p = 0) (hm : m = 0) (hSC : laneCount s4.latchSC = 0) (hFE : laneCount s.latchFE ≤ laneCount (decode s5).latchFE)
    (htravel : travellers s = []) : s.retiredCount = s.lastSeq := by
  obtain ⟨hFE2, hID2⟩ := h.latches
  obtain ⟨hFE5, hID4, -⟩ := h'.latchFE
  have hcount2 := h.robCount
  have hnone : robCount s = 0 := by
    by_contra hne
    have hready : (s.robAt s.robHead).valid = true := hinv.robOk.head_valid_iff.mpr (by omega)
    have hnotReady : (s.robAt s.robHead).ready = false := by
      have hpos := h.retired.pos_iff hinv.coreOk_counted.backend.rob h.stop
      rw [Bool.eq_false_iff]
      intro hr
      have hhead : robHeadIsReady (counted s) = true := by
        show ((s.robAt s.robHead).valid && (s.robAt s.robHead).ready) = true
        rw [hready, hr]
        rfl
      have := hpos.mpr hhead
      omega
    have hnotExec : (s.robAt s.robHead).exec = false := by
      rw [Bool.eq_false_iff]
      intro he
      obtain ⟨c, hc, -⟩ := hinv.liveOk.covered _ hready he hnotReady
      rw [htravel] at hc
      cases hc
    have hslot := h.robAt_of_not_ready hnotReady
    rw [writtenSlot_of_valid hready] at hslot
    have hhead3 : s3.robHead = s.robHead := by
      have hhead1 : s1.robHead = (s.robHead + p) % s.cfg.robSize := h.retired.robHead
      have h2 := h.written.frame
      have h3 := h'.executed.frame
      unfold Stage.Frame at h2 h3
      rw [h3, h2]
      show s1.robHead = _
      rw [hhead1, hp, Nat.add_zero, Nat.mod_eq_of_lt hinv.robOk.headLt]
    have hrob3 (v : Nat) : s3.robAt v = s2.robAt v := by
      rw [State.robAt, (carried_execute h'.execute).rob, State.robAt]
    have hselect : select s3 = some s3.robHead := by
      refine h'.core3.backend.rob.select_head h'.core3.live.tags ?_
      rw [candidate, hhead3, hrob3, hslot, hready, hnotExec]
      rfl
    have hempty := execute_empties_latchSC h.core2.backend.widths (fun i => by
      exact writeback_empties_latchEX h.core1.backend.widths.latchEX h.writeback i) h'.execute
    obtain ⟨hlane, -⟩ := h'.scheduled.first 0 _ s3.cfg.one_le_pipeWidth (hempty 0) (fun j hj => nomatch hj) hselect
    have hvalid : (s4.latchSC.getD 0 .empty).valid = true := congrArg Lane.valid hlane
    have hmem := inst_mem_laneRecords hvalid
    rw [laneCount_eq_length] at hSC
    exact absurd (List.length_pos_of_mem hmem) (by omega)
  have hissue := h'.count
  have hmore := h'.issuedBy.count
  have hleft := h'.issuedBy.left
  have hsize := s4.cfg.one_le_robSize
  rw [h'.sameRecords.robCount, hID4, hID2] at hissue
  rw [h'.sameRecords.robCount] at hmore
  rw [hID4, hID2] at hleft
  have hdecoded := h'.decoded.count
  have hwidth := s5.cfg.one_le_pipeWidth
  have hlengthID : s5.latchID.length = s5.cfg.pipeWidth := by
    obtain ⟨-, -, -, hstalls, -⟩ := (path_issue h'.issue).sameFixed
    rw [length_of_stalls_eq hstalls, hID4, hID2, (wellShaped_iff.mp hinv.shape).latchID.length,
      h'.issuedBy.frame.cfg, h'.sameRecords.cfg, h.cfg]
  have hfull := h'.decoded.laneCount_ID hlengthID
  rw [hFE5, hFE2] at hdecoded hfull
  obtain ⟨-, -, hlast⟩ := hinv.front
  omega

/-- A tick that goes on brings the run on: something comes, or something travels. -/
theorem Inv.measure_step (hinv : Inv s) (hhalted : s.halted = false) (hstep : step s = .next t) (hfault : t.fault = none) :
    toCome t < toCome s ∨ (toCome t = toCome s ∧ toExecute t < toExecute s) := by
  have hinvT := everyStepKeepsTheInvariant s t hinv hstep hfault
  obtain ⟨s1, s2, p, s3, s4, s5, moved, m, h, h', hat, ht⟩ := hinv.stages hhalted hstep hfault
  have hframe := fetch_frontEnd (nextItem s) hat (itemOk_nextItem s)
  rw [← ht] at hframe
  have htrace : t.trace = s.trace := by
    have hf := hframe
    unfold Stage.Frame at hf
    rw [hf]
    exact hat.trace
  have hstream : t.tracePos ≤ s.trace.length := htrace ▸ hinvT.stream.1
  obtain ⟨n, hfetch, hidle⟩ := toCome_fetch hat (ht ▸ hstream)
  rw [← ht] at hfetch
  have hcome := toCome_stages h h' hinv.coreOk_counted hframe hfetch
  have hrest := h'.decoded.rest.length_le
  obtain ⟨hFE2, -⟩ := h.latches
  obtain ⟨hFE5, -⟩ := h'.latchFE
  rw [← laneCount_eq_length, ← laneCount_eq_length, hFE5, hFE2] at hrest
  by_cases hless : toCome t < toCome s
  · exact .inl hless
  have hd := h'.frame
  have hSC : t.latchSC = s4.latchSC := by
    have hf := hframe
    unfold Stage.Frame at hf
    rw [hf, hd]
  have hnoSC : laneCount s4.latchSC = 0 := by rw [← hSC]; omega
  refine .inr ⟨by omega, ?_⟩
  obtain ⟨hqueueT, hEXT, -⟩ := queue_of_stages h h' hframe
  have htoT : toExecute t = toExecute s3 := by
    have hempty3 : laneRecords s3.latchSC = [] := laneRecords_of_all_invalid fun l hl => by
      rw [h'.executed.latchSC] at hl
      obtain ⟨l', -, rfl⟩ := List.mem_map.mp hl
      rfl
    have hemptyT : laneRecords t.latchSC = [] := by
      rw [hSC]
      rw [laneCount_eq_length] at hnoSC
      exact List.eq_nil_of_length_eq_zero hnoSC
    rw [toExecute, toExecute, hempty3, hemptyT, hqueueT, hEXT]
    rfl
  have hto := h'.executed.toExecute h.latchEX
  have h2 := h.frame
  have htoS : toExecute s = toExecute s2 + laneCount s.latchEX := by
    have hnoEX : laneCount s2.latchEX = 0 := by rw [laneCount_eq_length, laneRecords_of_all_invalid h.latchEX]; rfl
    rw [toExecute, toExecute, hnoEX, h2]
    rfl
  by_contra hnot
  have hidle3 := h'.executed.idle (by rw [h.core2.backend.widths.latchEX]; exact wbWidth_pos _)
    (List.eq_nil_of_length_eq_zero (by omega)) (by omega) (by omega)
  have htravel : travellers s = [] := by
    have hsplit : (singles s2.cfg s2.latchSC ++ multis s2.cfg s2.latchSC).Perm (laneRecords s2.latchSC) :=
      List.filter_append_perm _ _
    have hlength := hsplit.length_eq
    rw [List.length_append] at hlength
    have hSC0 : laneRecords s.latchSC = [] := by
      have hsame : s2.latchSC = s.latchSC := by rw [h2]
      rw [← hsame]
      exact List.eq_nil_of_length_eq_zero (by omega)
    have hEX0 : laneRecords s.latchEX = [] := List.eq_nil_of_length_eq_zero (by rw [← laneCount_eq_length]; omega)
    have hexeq0 : exeqRecords s = [] := by
      have hsame : exeqRecords s2 = exeqRecords s := by rw [h2]; rfl
      rw [← hsame, hidle3]
    rw [travellers, hSC0, hEX0, hexeq0]
    rfl
  have hdone := hinv.empty_of_idle h h' (by omega) (by omega) hnoSC (by omega) htravel
  obtain ⟨hbefore, hafter⟩ := hinv.halt
  rcases hidle (by omega) with heos | hroom
  · obtain ⟨-, hhalt⟩ := hafter heos
    rw [hhalted, hdone, decide_eq_true rfl] at hhalt
    cases hhalt
  · obtain ⟨-, -, hlast⟩ := hinv.front
    have hany : s.latchFE.any (fun l => !l.valid) = true := by
      rw [any_invalid_iff, (wellShaped_iff.mp hinv.shape).latchFE.length]
      have := s.cfg.one_le_pipeWidth
      omega
    rw [fetchRoom, hany] at hroom
    cases hroom

theorem ended_iff_of_inv (hinv : Inv s) : ended s = s.halted := by
  rw [ended, hinv.noFault]
  exact Bool.or_false _

theorem ticks_of_step (h : step s = .next t) (h' : ticks n t = .next u) : ticks (n + 1) s = .next u :=
  (run_of_step (M := core) h n).trans h'

/-- Settles O56: by induction on the measure; a fault ends the run at once, and a large enough configuration has none. -/
theorem everyRunEnds : Obligations.EveryRunEnds := by
  intro s hinv
  generalize ha : toCome s = a
  generalize hb : toExecute s = b
  induction a using Nat.strong_induction_on generalizing s b with
  | _ a iha =>
    induction b using Nat.strong_induction_on generalizing s with
    | _ b ihb =>
      cases hhalted : s.halted with
      | true => exact ⟨0, s, rfl, by rw [ended_iff_of_inv hinv, hhalted], fun _ _ => hhalted⟩
      | false =>
        have hstep := step_eq_next hinv.shape
        cases hfault : (tick (nextItem s) s).fault with
        | some c =>
          refine ⟨1, _, ticks_of_step hstep rfl, by rw [ended, hfault]; exact Bool.or_true _, fun hsized hspread => ?_⟩
          obtain ⟨t, ht, hnone, -⟩ := sizedConfigurationNeverFaults s hinv hsized hspread
          rw [hstep] at ht
          cases ht
          exact absurd (hfault.symm.trans hnone) (by simp)
        | none =>
          have hinvT := everyStepKeepsTheInvariant s _ hinv hstep hfault
          have hnext : ∃ n u, ticks n (tick (nextItem s) s) = .next u ∧ ended u = true ∧
              (Sized (tick (nextItem s) s).cfg → Spread (tick (nextItem s) s) → u.halted = true) := by
            rcases hinv.measure_step hhalted hstep hfault with hless | ⟨hsame, hless⟩
            · exact iha _ (ha ▸ hless) _ hinvT rfl _ rfl
            · exact ihb _ (hb ▸ hless) _ hinvT (hsame.trans ha) rfl
          obtain ⟨n, u, hrun, hended, hhalt⟩ := hnext
          refine ⟨n + 1, u, ticks_of_step hstep hrun, hended, fun hsized hspread => ?_⟩
          obtain ⟨t, ht, -, hspreadT⟩ := sizedConfigurationNeverFaults s hinv hsized hspread
          rw [hstep] at ht
          cases ht
          refine hhalt ?_ hspreadT
          rwa [cfg_of_step hstep hfault]

end

end Sys2Proof.Machine
end

section
/-! PROOFS. What no rule reads (70_reset_and_hazards.md R342): two states that agree up to the records of free entries answer
every test alike, and every operation leaves them agreeing. -/

namespace Sys2Proof.Machine

section
variable {α β : Type} {s s' : State} {k : Nat}

/-! ## Entries -/

@[simp] theorem Lane.valid_visible (l : Lane) : l.visible.valid = l.valid := by unfold Lane.visible; split <;> rfl
@[simp] theorem Lane.stall_visible (l : Lane) : l.visible.stall = l.stall := by unfold Lane.visible; split <;> rfl
@[simp] theorem RobSlot.valid_visible (x : RobSlot) : x.visible.valid = x.valid := by unfold RobSlot.visible; split <;> rfl
@[simp] theorem RobSlot.exec_visible (x : RobSlot) : x.visible.exec = x.exec := by unfold RobSlot.visible; split <;> rfl
@[simp] theorem RobSlot.ready_visible (x : RobSlot) : x.visible.ready = x.ready := by unfold RobSlot.visible; split <;> rfl
@[simp] theorem ExeqSlot.valid_visible (x : ExeqSlot) : x.visible.valid = x.valid := by
  unfold ExeqSlot.visible; split <;> rfl

theorem Lane.visible_of_valid {l : Lane} (h : l.valid = true) : l.visible = l := if_pos h
theorem RobSlot.visible_of_valid {x : RobSlot} (h : x.valid = true) : x.visible = x := if_pos h
theorem ExeqSlot.visible_of_valid {x : ExeqSlot} (h : x.valid = true) : x.visible = x := if_pos h

theorem Lane.visible_of_invalid {l : Lane} (h : l.valid = false) : l.visible = { l with inst := .blank } :=
  if_neg (Bool.eq_false_iff.mp h)

/-- What two entries that look alike have in common. -/
theorem Lane.alike {l l' : Lane} (h : l.visible = l'.visible) :
    l.valid = l'.valid ∧ l.stall = l'.stall ∧ (l.valid = true → l = l') := by
  have hvalid : l.valid = l'.valid := by simpa using congrArg Lane.valid h
  refine ⟨hvalid, by simpa using congrArg Lane.stall h, fun hv => ?_⟩
  rwa [Lane.visible_of_valid hv, Lane.visible_of_valid (hvalid ▸ hv)] at h

theorem RobSlot.alike {x x' : RobSlot} (h : x.visible = x'.visible) :
    x.valid = x'.valid ∧ x.exec = x'.exec ∧ x.ready = x'.ready ∧ (x.valid = true → x = x') := by
  have hvalid : x.valid = x'.valid := by simpa using congrArg RobSlot.valid h
  refine ⟨hvalid, by simpa using congrArg RobSlot.exec h, by simpa using congrArg RobSlot.ready h, fun hv => ?_⟩
  rwa [RobSlot.visible_of_valid hv, RobSlot.visible_of_valid (hvalid ▸ hv)] at h

theorem ExeqSlot.alike {x x' : ExeqSlot} (h : x.visible = x'.visible) :
    x.valid = x'.valid ∧ (x.valid = true → x = x') := by
  have hvalid : x.valid = x'.valid := by simpa using congrArg ExeqSlot.valid h
  refine ⟨hvalid, fun hv => ?_⟩
  rwa [ExeqSlot.visible_of_valid hv, ExeqSlot.visible_of_valid (hvalid ▸ hv)] at h

/-- An entry emptied or filled looks as the other one emptied or filled. -/
theorem Lane.emptied_alike {l l' : Lane} (h : l.visible = l'.visible) :
    ({ l with valid := false } : Lane).visible = ({ l' with valid := false } : Lane).visible := by
  rw [Lane.visible_of_invalid rfl, Lane.visible_of_invalid rfl, (Lane.alike h).2.1]

theorem Lane.filled_alike {l l' : Lane} (h : l.visible = l'.visible) (x : Inst) :
    ({ l with valid := true, inst := x } : Lane).visible = ({ l' with valid := true, inst := x } : Lane).visible := by
  rw [Lane.visible_of_valid rfl, Lane.visible_of_valid rfl, (Lane.alike h).2.1]

/-! ## Reading -/

theorem getD_map {a : α} {f : α → β} (l : List α) (k : Nat) : (l.map f).getD k (f a) = f (l.getD k a) := by
  rw [List.getD_eq_getElem?_getD, List.getD_eq_getElem?_getD, List.getElem?_map]
  cases l[k]? <;> rfl

theorem robAt_visible (s : State) (t : Nat) : s.visible.robAt t = (s.robAt t).visible := getD_map (a := RobSlot.empty) s.rob t
theorem exeqAt_visible (s : State) (q : Nat) : s.visible.exeqAt q = (s.exeqAt q).visible := getD_map (a := ExeqSlot.empty) s.exeq q
theorem feAt_visible (s : State) (i : Nat) : s.visible.feAt i = (s.feAt i).visible := getD_map (a := Lane.empty) s.latchFE i
theorem idAt_visible (s : State) (i : Nat) : s.visible.idAt i = (s.idAt i).visible := getD_map (a := Lane.empty) s.latchID i
theorem scAt_visible (s : State) (i : Nat) : s.visible.scAt i = (s.scAt i).visible := getD_map (a := Lane.empty) s.latchSC i
theorem exAt_visible (s : State) (i : Nat) : s.visible.exAt i = (s.exAt i).visible := getD_map (a := Lane.empty) s.latchEX i

/-! ## Writing -/

theorem visible_setRob (s : State) (t : Nat) (x : RobSlot) : (s.setRob t x).visible = s.visible.setRob t x.visible := by
  simp only [State.visible, State.setRob, List.map_set]
theorem visible_setExeq (s : State) (q : Nat) (x : ExeqSlot) : (s.setExeq q x).visible = s.visible.setExeq q x.visible := by
  simp only [State.visible, State.setExeq, List.map_set]
theorem visible_setFE (s : State) (i : Nat) (l : Lane) : (s.setFE i l).visible = s.visible.setFE i l.visible := by
  simp only [State.visible, State.setFE, List.map_set]
theorem visible_setID (s : State) (i : Nat) (l : Lane) : (s.setID i l).visible = s.visible.setID i l.visible := by
  simp only [State.visible, State.setID, List.map_set]
theorem visible_setSC (s : State) (i : Nat) (l : Lane) : (s.setSC i l).visible = s.visible.setSC i l.visible := by
  simp only [State.visible, State.setSC, List.map_set]
theorem visible_setEX (s : State) (i : Nat) (l : Lane) : (s.setEX i l).visible = s.visible.setEX i l.visible := by
  simp only [State.visible, State.setEX, List.map_set]

/-! ## The choices the stages make -/

theorem oldestLane_map_visible (latch : List Lane) : oldestLane (latch.map Lane.visible) = oldestLane latch := by
  rw [oldestLane, oldestLane, List.map_map]
  refine congrArg oldest (List.map_congr_left fun l _ => ?_)
  cases hv : l.valid with
  | false => simp [hv]
  | true => simp [Lane.visible_of_valid hv, hv]

theorem findIdx?_map_visible (latch : List Lane) :
    (latch.map Lane.visible).findIdx? (fun l => !l.valid) = latch.findIdx? (fun l => !l.valid) := by
  rw [List.findIdx?_map]
  exact congrArg (List.findIdx? · latch) (funext fun l => by simp)

theorem finished_visible (x : ExeqSlot) : x.visible.finished = x.finished := by
  cases hv : x.valid with
  | false => rw [not_finished_of_invalid hv, not_finished_of_invalid (by simpa using hv)]
  | true => rw [ExeqSlot.visible_of_valid hv]

theorem freeExLane_visible (s : State) : freeExLane s.visible = freeExLane s := findIdx?_map_visible s.latchEX

theorem freeExeqSlot_visible (s : State) : freeExeqSlot s.visible = freeExeqSlot s := by
  rw [freeExeqSlot, freeExeqSlot, State.visible, List.findIdx?_map]
  exact congrArg (List.findIdx? · s.exeq) (funext fun x => by simp)

theorem oldestFinished_visible (s : State) : oldestFinished s.visible = oldestFinished s := by
  rw [oldestFinished, oldestFinished, State.visible, List.map_map]
  refine congrArg oldest (List.map_congr_left fun x _ => ?_)
  rw [Function.comp, finished_visible]
  cases hf : x.finished with
  | false => rfl
  | true =>
    obtain ⟨hv, -⟩ := finished_iff.mp hf
    rw [ExeqSlot.visible_of_valid hv]

theorem robOrder_visible (s : State) : robOrder s.visible = robOrder s := by
  rw [robOrder, robOrder]
  refine List.filter_congr fun t _ => ?_
  rw [robAt_visible, RobSlot.valid_visible]

theorem operandsReady_visible {t : Nat} (ht : (s.robAt t).valid = true) : operandsReady s.visible t = operandsReady s t := by
  rw [operandsReady, robAt_visible, RobSlot.visible_of_valid ht, operandsReady]

theorem candidate_visible (s : State) (t : Nat) : candidate s.visible t = candidate s t := by
  rw [candidate, robAt_visible, RobSlot.valid_visible, RobSlot.exec_visible, candidate]

theorem firstInOrder_visible : ∀ {ts : List Nat}, (∀ t ∈ ts, (s.robAt t).valid = true) →
    firstInOrder s.visible ts = firstInOrder s ts
  | [], _ => rfl
  | t :: ts, hts => by
    rw [firstInOrder, firstInOrder, robAt_visible, RobSlot.exec_visible,
      operandsReady_visible (hts t List.mem_cons_self),
      firstInOrder_visible fun u hu => hts u (List.mem_cons_of_mem _ hu)]

theorem select_visible (s : State) : select s.visible = select s := by
  have horder : ∀ t ∈ robOrder s, (s.robAt t).valid = true := fun t ht => by
    rw [robOrder] at ht
    exact (List.mem_filter.mp ht).2
  have hpolicy : s.visible.cfg.schedPolicy = s.cfg.schedPolicy := rfl
  rw [select, select, hpolicy]
  split
  next => rw [selectInOrder, selectInOrder, robOrder_visible, firstInOrder_visible horder]
  next =>
    rw [selectOoo, selectOoo, robOrder_visible]
    refine List.find?_congr fun t ht => ?_
    rw [candidate_visible, operandsReady_visible (horder t ht)]

end

end Sys2Proof.Machine
end

section
/-! PROOFS. The stages on two states that look alike (70_reset_and_hazards.md R342). -/

namespace Sys2Proof.Machine

/-- A result without the unreadable records. -/
def Res.visible {α : Type} : Res α → Res α
  | .ok a s => .ok a s.visible
  | .raised s => .raised s.visible

section
variable {α β : Type} {s s' : State} {i j k : Nat}

theorem Res.bind_alike {x y : Res α} {f g : α → State → Res β} (h : x.visible = y.visible)
    (hf : ∀ a u u', x = .ok a u → u.visible = u'.visible → (f a u).visible = (g a u').visible) :
    (x.bind f).visible = (y.bind g).visible := by
  cases x with
  | ok a u =>
    cases y with
    | ok b v =>
      simp only [Res.visible, Res.ok.injEq] at h
      obtain ⟨rfl, huv⟩ := h
      exact hf a u v rfl huv
    | raised v => cases h
  | raised u =>
    cases y with
    | ok b v => cases h
    | raised v =>
      simp only [Res.visible, Res.raised.injEq] at h
      show Res.raised u.visible = Res.raised v.visible
      rw [h]

theorem Res.ok_alike {a : α} (h : s.visible = s'.visible) : (Res.ok a s).visible = (Res.ok a s').visible := by
  rw [Res.visible, Res.visible, h]

theorem Res.raise_alike (c : FaultCode) (h : s.visible = s'.visible) :
    (raise c s : Res α).visible = (raise c s' : Res α).visible := by
  show Res.raised (s.visible.setFault c) = Res.raised (s'.visible.setFault c)
  rw [h]

theorem Res.state_alike {x y : Res α} (h : x.visible = y.visible) : x.state.visible = y.state.visible := by
  cases x with
  | ok a u =>
    cases y with
    | ok b v => simp only [Res.visible, Res.ok.injEq] at h; exact h.2
    | raised v => cases h
  | raised u =>
    cases y with
    | ok b v => cases h
    | raised v => simp only [Res.visible, Res.raised.injEq] at h; exact h

theorem forLanes_alike {f : Nat → State → Res Unit}
    (hf : ∀ k u u', u.visible = u'.visible → (f k u).visible = (f k u').visible) :
    ∀ ks {u u' : State}, u.visible = u'.visible → (forLanes f ks u).visible = (forLanes f ks u').visible
  | [], _, _, h => Res.ok_alike h
  | k :: ks, _, _, h => Res.bind_alike (hf k _ _ h) fun _ _ _ _ hu => forLanes_alike hf ks hu

section
variable (h : s.visible = s'.visible)
include h

theorem cfg_alike : s.cfg = s'.cfg :=
  show s.visible.cfg = s'.visible.cfg from congrArg State.cfg h
theorem rat_alike : s.rat = s'.rat :=
  show s.visible.rat = s'.visible.rat from congrArg State.rat h
theorem ratAt_alike (r : Nat) : s.ratAt r = s'.ratAt r := by rw [State.ratAt, rat_alike h, State.ratAt]
theorem robHead_alike : s.robHead = s'.robHead :=
  show s.visible.robHead = s'.visible.robHead from congrArg State.robHead h
theorem robTail_alike : s.robTail = s'.robTail :=
  show s.visible.robTail = s'.visible.robTail from congrArg State.robTail h
theorem eosSeen_alike : s.eosSeen = s'.eosSeen :=
  show s.visible.eosSeen = s'.visible.eosSeen from congrArg State.eosSeen h
theorem lastSeq_alike : s.lastSeq = s'.lastSeq :=
  show s.visible.lastSeq = s'.visible.lastSeq from congrArg State.lastSeq h

theorem robAt_alike (t : Nat) : (s.robAt t).visible = (s'.robAt t).visible := by
  rw [← robAt_visible, h, robAt_visible]
theorem exeqAt_alike (q : Nat) : (s.exeqAt q).visible = (s'.exeqAt q).visible := by
  rw [← exeqAt_visible, h, exeqAt_visible]
theorem feAt_alike (i : Nat) : (s.feAt i).visible = (s'.feAt i).visible := by rw [← feAt_visible, h, feAt_visible]
theorem idAt_alike (i : Nat) : (s.idAt i).visible = (s'.idAt i).visible := by rw [← idAt_visible, h, idAt_visible]
theorem scAt_alike (i : Nat) : (s.scAt i).visible = (s'.scAt i).visible := by rw [← scAt_visible, h, scAt_visible]
theorem exAt_alike (i : Nat) : (s.exAt i).visible = (s'.exAt i).visible := by rw [← exAt_visible, h, exAt_visible]

theorem setRob_alike {x x' : RobSlot} (hx : x.visible = x'.visible) (t : Nat) :
    (s.setRob t x).visible = (s'.setRob t x').visible := by rw [visible_setRob, visible_setRob, h, hx]
theorem setExeq_alike {x x' : ExeqSlot} (hx : x.visible = x'.visible) (q : Nat) :
    (s.setExeq q x).visible = (s'.setExeq q x').visible := by rw [visible_setExeq, visible_setExeq, h, hx]
theorem setFE_alike {l l' : Lane} (hl : l.visible = l'.visible) (i : Nat) :
    (s.setFE i l).visible = (s'.setFE i l').visible := by rw [visible_setFE, visible_setFE, h, hl]
theorem setID_alike {l l' : Lane} (hl : l.visible = l'.visible) (i : Nat) :
    (s.setID i l).visible = (s'.setID i l').visible := by rw [visible_setID, visible_setID, h, hl]
theorem setSC_alike {l l' : Lane} (hl : l.visible = l'.visible) (i : Nat) :
    (s.setSC i l).visible = (s'.setSC i l').visible := by rw [visible_setSC, visible_setSC, h, hl]
theorem setEX_alike {l l' : Lane} (hl : l.visible = l'.visible) (i : Nat) :
    (s.setEX i l).visible = (s'.setEX i l').visible := by rw [visible_setEX, visible_setEX, h, hl]

/-! ## Commit -/

theorem robHeadIsReady_alike : robHeadIsReady s = robHeadIsReady s' := by
  obtain ⟨hv, -, hr, -⟩ := RobSlot.alike (robAt_alike h s'.robHead)
  rw [robHeadIsReady, robHead_alike h, hv, hr, robHeadIsReady]

theorem retireHead_alike (hready : robHeadIsReady s = true) : (retireHead s).visible = (retireHead s').visible := by
  have hslot := robAt_alike h s'.robHead
  obtain ⟨-, -, -, hsame⟩ := RobSlot.alike hslot
  rw [robHeadIsReady, Bool.and_eq_true, robHead_alike h] at hready
  rw [retireHead, retireHead, robHead_alike h, hsame hready.1, retire_eq, retire_eq]
  have hset : (s.setRob s'.robHead { s'.robAt s'.robHead with valid := false, exec := false, ready := false }).visible =
      (s'.setRob s'.robHead { s'.robAt s'.robHead with valid := false, exec := false, ready := false }).visible :=
    setRob_alike h rfl _
  have hnext : nextSlot s s'.robHead = nextSlot s' s'.robHead := by rw [nextSlot, cfg_alike h, nextSlot]
  rw [hnext]
  exact congrArg (fun u : State => { u with
    robHead := nextSlot s' s'.robHead
    rat := clearedRat (s'.robAt s'.robHead).inst u.rat
    retiredCount := u.retiredCount + 1
    halted := u.halted || u.eosSeen && decide (u.haltSeq ≤ (s'.robAt s'.robHead).inst.seq) }) hset

omit h in
theorem commitUpTo_alike : ∀ n {s s' : State}, s.visible = s'.visible →
    (commitUpTo n s).visible = (commitUpTo n s').visible
  | 0, _, _, h => Res.ok_alike h
  | n + 1, s, s', h => by
    cases hready : robHeadIsReady s with
    | false => rw [commitUpTo_idle hready, commitUpTo_idle ((robHeadIsReady_alike h).symm.trans hready), Res.ok_alike h]
    | true =>
      rw [commitUpTo_succ_of_ready n hready, commitUpTo_succ_of_ready n ((robHeadIsReady_alike h).symm.trans hready)]
      exact commitUpTo_alike n (retireHead_alike h hready)

/-! ## Writeback -/

theorem robWakeup_alike (g : Nat) : (robWakeup g s).visible = (robWakeup g s').visible := by
  have hslot (x : RobSlot) : (wakeSlot g x).visible = wakeSlot g x.visible := by
    cases hv : x.valid with
    | true =>
      obtain ⟨hw, -⟩ := wakeSlot_fields g x
      rw [RobSlot.visible_of_valid (hw.trans hv), RobSlot.visible_of_valid hv]
    | false =>
      have hw (y : RobSlot) (hy : y.valid = false) : wakeSlot g y = y := if_neg (Bool.eq_false_iff.mp hy)
      rw [hw x hv, hw x.visible (by simpa using hv)]
  have hvisible (u : State) : (robWakeup g u).visible = robWakeup g u.visible := by
    simp only [robWakeup, State.visible, List.map_map]
    refine congrArg (fun rob => { u.visible with rob := rob }) (List.map_congr_left fun x _ => hslot x)
  rw [hvisible, hvisible, h]

theorem robMarkReady_alike (g : Nat) : (robMarkReady g s).visible = (robMarkReady g s').visible := by
  have hslot := robAt_alike h g
  obtain ⟨hv, he, -, hsame⟩ := RobSlot.alike hslot
  rw [robMarkReady, robMarkReady, ← hv]
  split
  next hvalid => rw [hsame hvalid]; exact Res.ok_alike (setRob_alike h rfl _)
  next => exact Res.raise_alike _ h

theorem writebackLane_alike (k : Nat) : (writebackLane k s).visible = (writebackLane k s').visible := by
  obtain ⟨hv, -, hsame⟩ := Lane.alike (exAt_alike h k)
  rw [writebackLane, writebackLane, ← hv]
  split
  next hvalid =>
    rw [← hsame hvalid]
    split
    next => exact Res.raise_alike _ h
    next g _ =>
      refine Res.bind_alike (robMarkReady_alike h g) fun _ u u' _ hu => Res.ok_alike ?_
      have hwake := robWakeup_alike hu g
      exact setEX_alike hwake (Lane.emptied_alike (exAt_alike hwake k)) k
  next => exact Res.ok_alike h

/-! ## Execute -/

theorem freeExLane_alike : freeExLane s = freeExLane s' := by rw [← freeExLane_visible, h, freeExLane_visible]

theorem putEX_alike (k : Nat) (x : Inst) : (putEX k x s).visible = (putEX k x s').visible :=
  setEX_alike h (Lane.filled_alike (exAt_alike h k) x) k

theorem emptySC_alike (i : Nat) : (emptySC i s).visible = (emptySC i s').visible :=
  setSC_alike h (Lane.emptied_alike (scAt_alike h i)) i

theorem bypassLane_alike (i : Nat) : (bypassLane i s).visible = (bypassLane i s').visible := by
  obtain ⟨hv, -, hsame⟩ := Lane.alike (scAt_alike h i)
  cases hvalid : (s.scAt i).valid with
  | false =>
    rw [bypassLane_idle fun hv' => absurd (hvalid.symm.trans hv') (by decide),
      bypassLane_idle fun hv' => absurd (hvalid.symm.trans (hv.trans hv')) (by decide), Res.ok_alike h]
  | true =>
    rw [bypassLane, bypassLane, ← hsame hvalid, ← cfg_alike h, ← freeExLane_alike h]
    split
    · split
      · exact Res.ok_alike h
      · exact Res.ok_alike (emptySC_alike (putEX_alike h _ _) i)
    · exact Res.ok_alike h

theorem exeqInsert_alike (x : Inst) : (exeqInsert x s).visible = (exeqInsert x s').visible := by
  have hfree : freeExeqSlot s = freeExeqSlot s' := by rw [← freeExeqSlot_visible, h, freeExeqSlot_visible]
  rw [exeqInsert, exeqInsert, ← hfree, ← cfg_alike h]
  split
  · exact Res.raise_alike _ h
  · exact Res.ok_alike (setExeq_alike h rfl _)

theorem enqueueLane_alike (i : Nat) : (enqueueLane i s).visible = (enqueueLane i s').visible := by
  obtain ⟨hv, -, hsame⟩ := Lane.alike (scAt_alike h i)
  cases hvalid : (s.scAt i).valid with
  | false => rw [enqueueLane_idle hvalid, enqueueLane_idle (hv.symm.trans hvalid), Res.ok_alike h]
  | true =>
    rw [enqueueLane, enqueueLane, ← hsame hvalid, ← cfg_alike h]
    split
    · exact Res.bind_alike (exeqInsert_alike h _) fun _ _ _ _ hu => Res.ok_alike (emptySC_alike hu i)
    · exact Res.ok_alike h

theorem exeqCycle_alike : (exeqCycle s).visible = (exeqCycle s').visible := by
  have hslot (x : ExeqSlot) : (ageSlot x).visible = ageSlot x.visible := by
    cases hv : x.valid with
    | true =>
      have haged : (ageSlot x).valid = true := by rw [ageSlot, if_pos hv]; exact hv
      rw [ExeqSlot.visible_of_valid haged, ExeqSlot.visible_of_valid hv]
    | false =>
      have haged (y : ExeqSlot) (hy : y.valid = false) : ageSlot y = y := if_neg (Bool.eq_false_iff.mp hy)
      rw [haged x hv, haged x.visible (by simpa using hv)]
  have hvisible (u : State) : (exeqCycle u).visible = exeqCycle u.visible := by
    simp only [exeqCycle, State.visible, List.map_map]
    refine congrArg (fun exeq => { u.visible with exeq := exeq }) (List.map_congr_left fun x _ => hslot x)
  rw [hvisible, hvisible, h]

omit h in
theorem drainUpTo_alike : ∀ n {s s' : State}, s.visible = s'.visible → (drainUpTo n s).visible = (drainUpTo n s').visible
  | 0, _, _, h => h
  | n + 1, s, s', h => by
    have hoption : oldestFinished s = oldestFinished s' := by rw [← oldestFinished_visible, h, oldestFinished_visible]
    rw [drainUpTo, drainUpTo, ← freeExLane_alike h, exeqRemoveFinished, exeqRemoveFinished, ← hoption]
    split
    next => exact h
    next k _ =>
      cases hq : oldestFinished s with
      | none => exact h
      | some q =>
        obtain ⟨-, hfin, -⟩ := oldestFinished_eq_some hq
        obtain ⟨hv, -⟩ := finished_iff.mp hfin
        have hsame := (ExeqSlot.alike (exeqAt_alike h q)).2 hv
        simp only [hsame]
        exact drainUpTo_alike n (putEX_alike (setExeq_alike h rfl q) k _)

theorem execute_alike : (execute s).visible = (execute s').visible := by
  rw [execute, execute, ← cfg_alike h]
  refine Res.bind_alike (forLanes_alike (fun k _ _ hu => bypassLane_alike hu k) _ h) fun _ u u' _ hu => ?_
  refine Res.bind_alike (forLanes_alike (fun k _ _ hv => enqueueLane_alike hv k) _ hu) fun _ v v' _ hv => ?_
  have hlength : v.latchEX.length = v'.latchEX.length := by
    simpa [State.visible] using congrArg (fun w : State => w.latchEX.length) hv
  rw [hlength]
  exact Res.ok_alike (drainUpTo_alike _ (exeqCycle_alike hv))

/-! ## Schedule -/

theorem scheduleLane_alike (i : Nat) : (scheduleLane i s).visible = (scheduleLane i s').visible := by
  obtain ⟨hv, -, -⟩ := Lane.alike (scAt_alike h i)
  have hselect : select s = select s' := by rw [← select_visible, h, select_visible]
  rw [scheduleLane, scheduleLane, ← hv, ← hselect]
  split
  · exact Res.ok_alike h
  · split
    · exact Res.ok_alike h
    next g _ =>
      obtain ⟨hgv, hexec, -, hsame⟩ := RobSlot.alike (robAt_alike h g)
      have hcand : candidate s g = candidate s' g := by rw [candidate, hgv, hexec, candidate]
      have hmark : (robMarkExecuting g s).visible = (robMarkExecuting g s').visible := by
        rw [robMarkExecuting, robMarkExecuting, ← hcand]
        split
        next hyes =>
          rw [candidate, Bool.and_eq_true] at hyes
          rw [hsame hyes.1]
          exact Res.ok_alike (setRob_alike h rfl _)
        next => exact Res.raise_alike _ h
      refine Res.bind_alike hmark fun _ u u' hu huu => Res.ok_alike ?_
      obtain ⟨hyes, rfl⟩ := robMarkExecuting_eq_ok hu
      rw [candidate, Bool.and_eq_true] at hyes
      have hvalid : ((s.setRob g { s.robAt g with exec := true }).robAt g).valid = true := by
        rw [State.robAt_setRob, if_pos ⟨rfl, lt_length_of_slot_valid hyes.1⟩]
        exact hyes.1
      rw [(RobSlot.alike (robAt_alike huu g)).2.2.2 hvalid]
      exact setSC_alike huu (Lane.filled_alike (scAt_alike huu i) _) i

/-! ## Issue -/

theorem robHasSpace_alike : robHasSpace s = robHasSpace s' := by
  rw [robHasSpace, robTail_alike h, (RobSlot.alike (robAt_alike h s'.robTail)).1, robHasSpace]

theorem resolveSource_alike (src : Option Nat) : (resolveSource src s).visible = (resolveSource src s').visible := by
  unfold resolveSource
  split
  · exact Res.ok_alike h
  next r =>
    rw [ratGetRemap, ratGetRemap, ← ratAt_alike h]
    split
    · exact Res.ok_alike h
    next g _ =>
      obtain ⟨hv, -, hr, -⟩ := RobSlot.alike (robAt_alike h g)
      refine Res.bind_alike ?_ fun _ _ _ _ hu => Res.ok_alike hu
      rw [robIsReady, robIsReady, ← hv, ← hr]
      split
      · exact Res.ok_alike h
      · exact Res.raise_alike _ h

theorem robInsert_alike (x : Inst) : (robInsert x s).visible = (robInsert x s').visible := by
  rw [robInsert, robInsert, ← robHasSpace_alike h, ← robTail_alike h]
  split
  · have hset := setRob_alike h (x := { valid := true, exec := false, ready := false, inst := { x with drTag := some s.robTail } })
      rfl s.robTail
    have hnext : nextSlot s s.robTail = nextSlot s' s.robTail := by rw [nextSlot, cfg_alike h, nextSlot]
    rw [hnext]
    exact congrArg (fun u : State => Res.ok s.robTail { u with robTail := nextSlot s' s.robTail }) hset
  · exact Res.raise_alike _ h

theorem renameDest_alike (dest : Option Nat) (g : Nat) : (renameDest dest g s).visible = (renameDest dest g s').visible := by
  cases dest with
  | none => exact h
  | some d => exact congrArg (fun u : State => u.setRat d (some g)) h

theorem issueOne_alike (hj : (s.idAt j).valid = true) : (issueOne j s).visible = (issueOne j s').visible := by
  have hsame := (Lane.alike (idAt_alike h j)).2.2 hj
  rw [issueOne, issueOne, ← hsame]
  refine Res.bind_alike ?_ fun x u u' _ hu => Res.bind_alike (robInsert_alike hu x) fun g v v' _ hv => ?_
  · refine Res.bind_alike (resolveSource_alike h _) fun a u u' _ hu => ?_
    exact Res.bind_alike (resolveSource_alike hu _) fun b v v' _ hv => Res.ok_alike hv
  · have hrename := renameDest_alike hv x.dest g
    exact Res.ok_alike (setID_alike hrename (Lane.emptied_alike (idAt_alike hrename j)) j)

omit h in
theorem issueUpTo_alike : ∀ n {s s' : State}, s.visible = s'.visible → (issueUpTo n s).visible = (issueUpTo n s').visible
  | 0, _, _, h => Res.ok_alike h
  | n + 1, s, s', h => by
    have holdest : oldestLane s.latchID = oldestLane s'.latchID := by
      have hlatch : s.latchID.map Lane.visible = s'.latchID.map Lane.visible := congrArg State.latchID h
      rw [← oldestLane_map_visible, hlatch, oldestLane_map_visible]
    rw [issueUpTo, issueUpTo, ← robHasSpace_alike h, ← holdest]
    split
    · split
      · exact Res.ok_alike h
      next j hj =>
        obtain ⟨hv, -⟩ := oldestLane_eq_some hj
        exact Res.bind_alike (issueOne_alike h hv) fun _ _ _ _ hu => issueUpTo_alike n hu
    · exact Res.ok_alike h

/-! ## Decode and Fetch -/

theorem moveToID_alike (hj : (s.feAt j).valid = true) : (moveToID i j s).visible = (moveToID i j s').visible := by
  have hsame := (Lane.alike (feAt_alike h j)).2.2 hj
  have hset : (s.setID i { s.idAt i with valid := true, inst := (s.feAt j).inst }).visible =
      (s'.setID i { s'.idAt i with valid := true, inst := (s'.feAt j).inst }).visible := by
    rw [hsame]
    exact setID_alike h (Lane.filled_alike (idAt_alike h i) _) i
  exact setFE_alike hset (Lane.emptied_alike (feAt_alike hset j)) j

omit h in
theorem decodeLanes_alike : ∀ is {s s' : State}, s.visible = s'.visible →
    (decodeLanes is s).visible = (decodeLanes is s').visible
  | [], _, _, h => h
  | i :: is, s, s', h => by
    have holdest : oldestLane s.latchFE = oldestLane s'.latchFE := by
      have hlatch : s.latchFE.map Lane.visible = s'.latchFE.map Lane.visible := congrArg State.latchFE h
      rw [← oldestLane_map_visible, hlatch, oldestLane_map_visible]
    obtain ⟨hv, hst, -⟩ := Lane.alike (idAt_alike h i)
    rw [decodeLanes, decodeLanes, ← hv, ← hst, ← holdest]
    split
    · exact decodeLanes_alike is h
    · split
      · exact h
      next j hj =>
        obtain ⟨hjv, -⟩ := oldestLane_eq_some hj
        exact decodeLanes_alike is (moveToID_alike h hjv)

theorem endInput_alike (k : Nat) : (endInput k s).visible = (endInput k s').visible := by
  have hset := setFE_alike h (Lane.emptied_alike (feAt_alike h k)) k
  exact congrArg (fun u : State => { u with
    eosSeen := true, haltSeq := u.lastSeq, halted := u.halted || u.lastSeq == 0 }) hset

theorem fetchInto_alike (k : Nat) (item : TraceItem) : (fetchInto k item s).visible = (fetchInto k item s').visible := by
  cases item with
  | record i =>
    have hset := setFE_alike h (Lane.filled_alike (feAt_alike h k) (fetchedInst (s.lastSeq + 1) i)) k
    rw [fetchInto, fetchInto, ← lastSeq_alike h]
    exact congrArg (fun u : State => { u with lastSeq := s.lastSeq + 1, tracePos := u.tracePos + 1 }) hset
  | malformed => exact endInput_alike (congrArg (fun u : State => { u with tracePos := u.tracePos + 1 }) h) k
  | endOfStream => exact endInput_alike h k

theorem nextItem_alike : nextItem s = nextItem s' := by
  have hvisible (u : State) : nextItem u.visible = nextItem u := rfl
  rw [← hvisible, h, hvisible]

omit h in
theorem fetchLanes_alike : ∀ ks first {s s' : State}, s.visible = s'.visible →
    (fetchLanes ks first s).visible = (fetchLanes ks first s').visible
  | [], _, _, _, h => h
  | k :: ks, first, s, s', h => by
    obtain ⟨hv, hst, -⟩ := Lane.alike (feAt_alike h k)
    rw [fetchLanes, fetchLanes, ← hv, ← hst, ← eosSeen_alike h, ← nextItem_alike h]
    split
    · exact h
    · split
      · exact fetchLanes_alike ks first h
      · exact fetchLanes_alike ks none (fetchInto_alike h k _)

/-! ## The tick -/

theorem commit_alike : (commit s).visible = (commit s').visible := by
  rw [commit, commit, cfg_alike h]
  exact commitUpTo_alike _ h

theorem writeback_alike : (writeback s).visible = (writeback s').visible := by
  rw [writeback, writeback, cfg_alike h]
  exact forLanes_alike (fun k _ _ hu => writebackLane_alike hu k) _ h

theorem schedule_alike : (schedule s).visible = (schedule s').visible := by
  rw [schedule, schedule, cfg_alike h]
  exact forLanes_alike (fun k _ _ hu => scheduleLane_alike hu k) _ h

theorem issue_alike : (issue s).visible = (issue s').visible := by
  rw [issue, issue, cfg_alike h]
  exact issueUpTo_alike _ h

theorem decode_alike : (decode s).visible = (decode s').visible := by
  rw [decode, decode, cfg_alike h]
  exact decodeLanes_alike _ h

theorem fetch_alike (item : TraceItem) : (fetch item s).visible = (fetch item s').visible := by
  rw [fetch, fetch, cfg_alike h]
  exact fetchLanes_alike _ _ h

theorem beforeFetch_alike : (beforeFetch s).visible = (beforeFetch s').visible := by
  have hcounted : ({ s with cycleCount := s.cycleCount + 1 } : State).visible =
      ({ s' with cycleCount := s'.cycleCount + 1 } : State).visible :=
    congrArg (fun u : State => { u with cycleCount := u.cycleCount + 1 }) h
  rw [beforeFetch, beforeFetch]
  exact Res.bind_alike (commit_alike hcounted) fun _ _ _ _ h1 => Res.bind_alike (writeback_alike h1) fun _ _ _ _ h2 =>
    Res.bind_alike (execute_alike h2) fun _ _ _ _ h3 => Res.bind_alike (schedule_alike h3) fun _ _ _ _ h4 =>
      Res.bind_alike (issue_alike h4) fun _ _ _ _ h5 => Res.ok_alike (decode_alike h5)

theorem tick_alike (item : TraceItem) : (tick item s).visible = (tick item s').visible := by
  have hrun : running s = running s' := by
    have hvisible (u : State) : running u.visible = running u := rfl
    rw [← hvisible, h, hvisible]
  rw [tick, tick, ← hrun]
  split
  · exact Res.state_alike (Res.bind_alike (beforeFetch_alike h) fun _ _ _ _ hu => Res.ok_alike (fetch_alike hu item))
  · exact h

end

/-! ## The shape -/

theorem mem_of_map_visible {vis : α → α} {valid : α → Bool} {l l' : List α} (h : l.map vis = l'.map vis)
    (halike : ∀ a b, vis a = vis b → valid a = true → a = b) {b : α} (hb : b ∈ l')
    (hv : valid b = true) : b ∈ l := by
  have hmem : vis b ∈ l.map vis := h ▸ List.mem_map_of_mem hb
  obtain ⟨a, ha, he⟩ := List.mem_map.mp hmem
  rwa [halike b a he.symm hv]

theorem LatchShaped.of_visible {cfg : Config} {n : Nat} {latch latch' : List Lane}
    (h : latch.map Lane.visible = latch'.map Lane.visible) (hs : LatchShaped cfg n latch) : LatchShaped cfg n latch' where
  length := by
    have hlength := congrArg List.length h
    rw [List.length_map, List.length_map] at hlength
    exact hlength.symm.trans hs.length
  range l hl hv := hs.range l (mem_of_map_visible h (fun _ _ he => (Lane.alike he).2.2) hl hv) hv

theorem Shaped.of_visible (h : s.visible = s'.visible) (hs : Shaped s) : Shaped s' := by
  have hrob : s.rob.map RobSlot.visible = s'.rob.map RobSlot.visible := congrArg State.rob h
  have hexeq : s.exeq.map ExeqSlot.visible = s'.exeq.map ExeqSlot.visible := congrArg State.exeq h
  have hlengthRob : s.rob.length = s'.rob.length := by simpa using congrArg List.length hrob
  have hlengthExeq : s.exeq.length = s'.exeq.length := by simpa using congrArg List.length hexeq
  have hcfg := cfg_alike h
  refine ⟨?_, ?_, ?_, fun x hx hv => ?_, ?_, ?_, ?_, fun x hx hv => ?_, ?_, ?_, ?_, ?_⟩
  · rw [← rat_alike h, ← hcfg]; exact hs.ratLength
  · rw [← rat_alike h, ← hcfg]; exact hs.ratRange
  · rw [← hlengthRob, ← hcfg]; exact hs.robLength
  · rw [← hcfg]
    exact hs.robRange x (mem_of_map_visible hrob (fun _ _ he => (RobSlot.alike he).2.2.2) hx hv) hv
  · rw [← robHead_alike h, ← hcfg]; exact hs.headLt
  · rw [← robTail_alike h, ← hcfg]; exact hs.tailLt
  · rw [← hlengthExeq, ← hcfg]; exact hs.exeqLength
  · rw [← hcfg]
    exact hs.exeqRange x (mem_of_map_visible hexeq (fun _ _ he => (ExeqSlot.alike he).2) hx hv) hv
  · rw [← hcfg]; exact hs.latchFE.of_visible (congrArg State.latchFE h)
  · rw [← hcfg]; exact hs.latchID.of_visible (congrArg State.latchID h)
  · rw [← hcfg]; exact hs.latchSC.of_visible (congrArg State.latchSC h)
  · rw [← hcfg]; exact hs.latchEX.of_visible (congrArg State.latchEX h)

/-- Settles O58: the two ticks go stage by stage alike. -/
theorem unreadRecordsDoNotMatter : Obligations.UnreadRecordsDoNotMatter := by
  intro s s' t h hstep
  rw [step_eq_clock, clock_eq_next] at hstep
  obtain ⟨hshape, rfl⟩ := hstep
  refine ⟨tick (nextItem s') s', step_eq_next (wellShaped_iff.mpr ((wellShaped_iff.mp hshape).of_visible h)), ?_⟩
  rw [← nextItem_alike h]
  exact tick_alike h _

end

end Sys2Proof.Machine
end

section
/-! PROOFS. Two machines that hold the same records in other lanes and slots (spec/49_properties.md section 6): the invariant
holds of both or of neither, and the stages up to Execute leave them so. -/

namespace Sys2Proof.Machine

/-- The state without the latches and the EXEQ. -/
def State.rest (s : State) : State :=
  { s with latchFE := [], latchID := [], latchSC := [], latchEX := [], exeq := [] }

/-- The two states hold the same records in each latch and in the EXEQ, in some order, and are alike in all else. -/
structure Rearranged (s s' : State) : Prop where
  rest : s'.rest = s.rest
  latchFE : (laneRecords s.latchFE).Perm (laneRecords s'.latchFE)
  latchID : (laneRecords s.latchID).Perm (laneRecords s'.latchID)
  latchSC : (laneRecords s.latchSC).Perm (laneRecords s'.latchSC)
  latchEX : (laneRecords s.latchEX).Perm (laneRecords s'.latchEX)
  queue : (exeqRecords s).Perm (exeqRecords s')

section
variable {s s' t t' s1 s2 s3 s1' s2' s3' : State} {p p' n : Nat} {c d : Inst} {moved moved' : List Inst}

theorem laneRecords_perm {latch latch' : List Lane} (h : latch.Perm latch') :
    (laneRecords latch).Perm (laneRecords latch') := (h.filter _).map _

theorem laneCount_perm {latch latch' : List Lane} (h : latch.Perm latch') : laneCount latch' = laneCount latch :=
  h.symm.countP_eq _

/-! ## What the two have in common -/

section
variable (h : Rearranged s s')
include h

theorem Rearranged.cfg : s'.cfg = s.cfg := show s'.rest.cfg = s.rest.cfg by rw [h.rest]
theorem Rearranged.rob : s'.rob = s.rob := show s'.rest.rob = s.rest.rob by rw [h.rest]
theorem Rearranged.rat : s'.rat = s.rat := show s'.rest.rat = s.rest.rat by rw [h.rest]
theorem Rearranged.robTail : s'.robTail = s.robTail := show s'.rest.robTail = s.rest.robTail by rw [h.rest]
theorem Rearranged.eosSeen : s'.eosSeen = s.eosSeen := show s'.rest.eosSeen = s.rest.eosSeen by rw [h.rest]
theorem Rearranged.halted : s'.halted = s.halted := show s'.rest.halted = s.rest.halted by rw [h.rest]

theorem Rearranged.robAt (u : Nat) : s'.robAt u = s.robAt u := by rw [State.robAt, h.rob, State.robAt]

theorem Rearranged.nextItem : nextItem s' = nextItem s :=
  show Machine.nextItem s'.rest = Machine.nextItem s.rest by rw [h.rest]

theorem Rearranged.counted : Rearranged (counted s) (counted s') where
  __ := h
  rest := show Machine.counted s'.rest = Machine.counted s.rest by rw [h.rest]

theorem Rearranged.frame : s' = { s with
    latchFE := s'.latchFE, latchID := s'.latchID, latchSC := s'.latchSC, latchEX := s'.latchEX, exeq := s'.exeq } :=
  show s' = { s.rest with
      latchFE := s'.latchFE, latchID := s'.latchID, latchSC := s'.latchSC, latchEX := s'.latchEX, exeq := s'.exeq } by
    rw [← h.rest]
    rfl

end

/-! ## The invariant -/

theorem LatchShaped.perm {cfg : Config} {latch latch' : List Lane} (hs : LatchShaped cfg n latch)
    (h : latch.Perm latch') : LatchShaped cfg n latch' :=
  ⟨h.length_eq ▸ hs.length, fun l hl => hs.range l (h.mem_iff.mpr hl)⟩

theorem Inv.perm {fe id sc ex : List Lane} {q : List ExeqSlot} (hinv : Inv s) (hFE : s.latchFE.Perm fe)
    (hID : s.latchID.Perm id) (hSC : s.latchSC.Perm sc) (hEX : s.latchEX.Perm ex) (hq : s.exeq.Perm q) :
    Inv { s with latchFE := fe, latchID := id, latchSC := sc, latchEX := ex, exeq := q } := by
  have hshaped := wellShaped_iff.mp hinv.shape
  have htravel : (travellers s).Perm
      (travellers { s with latchFE := fe, latchID := id, latchSC := sc, latchEX := ex, exeq := q }) :=
    ((laneRecords_perm hSC).append ((hq.filter _).map _)).append (laneRecords_perm hEX)
  exact {
    shape := wellShaped_iff.mpr { hshaped with
      exeqLength := hq.length_eq ▸ hshaped.exeqLength
      exeqRange := fun x hx => hshaped.exeqRange x (hq.mem_iff.mpr hx)
      latchFE := hshaped.latchFE.perm hFE
      latchID := hshaped.latchID.perm hID
      latchSC := hshaped.latchSC.perm hSC
      latchEX := hshaped.latchEX.perm hEX }
    noFault := hinv.noFault
    window := hinv.window
    front := by
      obtain ⟨h1, h2, h3⟩ := hinv.front
      have hseqs {latch latch' : List Lane} (hl : latch.Perm latch') : (latchSeqs latch').Perm (latchSeqs latch) :=
        ((hl.symm.filter _).map _)
      refine ⟨(hseqs hID).trans ?_, (hseqs hFE).trans ?_, ?_⟩
      · rw [laneCount_perm hID]; exact h1
      · rw [laneCount_perm hID, laneCount_perm hFE]; exact h2
      · rw [laneCount_perm hID, laneCount_perm hFE]; exact h3
    fresh :=
      let ⟨h1, h2⟩ := hinv.fresh
      ⟨fun l hl => h1 l (hFE.mem_iff.mpr hl), fun l hl => h2 l (hID.mem_iff.mpr hl)⟩
    ownTags := hinv.ownTags
    flags := hinv.flags
    copies :=
      let ⟨h1, h2, h3⟩ := hinv.copies
      ⟨fun c hc => h1 c (htravel.mem_iff.mpr hc), (htravel.map _).nodup_iff.mp h2, fun u hu hv he hr =>
        let ⟨c, hc, htag⟩ := h3 u hu hv he hr
        ⟨c, htravel.mem_iff.mp hc, htag⟩⟩
    countdown := fun x hx => hinv.countdown x (hq.mem_iff.mpr hx)
    tags := hinv.tags
    rat := hinv.rat
    halt :=
      let ⟨h1, h2⟩ := hinv.halt
      ⟨fun heos =>
        let ⟨hseq, hhalted, hfull⟩ := h1 heos
        ⟨hseq, hhalted, hfull.imp_left fun hv l hl => hv l (hFE.mem_iff.mpr hl)⟩, h2⟩
    stream := hinv.stream
    noStall :=
      let ⟨h1, h2, h3, h4⟩ := hinv.noStall
      ⟨fun l hl => h1 l (hFE.mem_iff.mpr hl), fun l hl => h2 l (hID.mem_iff.mpr hl),
        fun l hl => h3 l (hSC.mem_iff.mpr hl), fun l hl => h4 l (hEX.mem_iff.mpr hl)⟩ }

/-! ## Commit and Writeback -/

theorem Rearranged.retireHead (h : Rearranged s s') : Rearranged (retireHead s) (retireHead s') := by
  refine ⟨?_, ?_, ?_, ?_, ?_, ?_⟩
  · have hrest (u : State) : (Machine.retireHead u).rest = Machine.retireHead u.rest := by
      rw [Machine.retireHead, Machine.retireHead, retire_eq, retire_eq]
      rfl
    rw [hrest, hrest, h.rest]
  all_goals rw [Machine.retireHead, Machine.retireHead, retire_eq, retire_eq]
  · exact h.latchFE
  · exact h.latchID
  · exact h.latchSC
  · exact h.latchEX
  · exact h.queue

theorem Rearranged.commitUpTo : ∀ n {s s' t t' : State}, Rearranged s s' → commitUpTo n s = .ok () t →
    commitUpTo n s' = .ok () t' → Rearranged t t'
  | 0, _, _, _, _, h, hrun, hrun' => by cases hrun; cases hrun'; exact h
  | n + 1, s, s', t, t', h, hrun, hrun' => by
    have hsame : robHeadIsReady s' = robHeadIsReady s :=
      show robHeadIsReady s'.rest = robHeadIsReady s.rest by rw [h.rest]
    cases hready : robHeadIsReady s with
    | false =>
      rw [commitUpTo_idle hready] at hrun
      rw [commitUpTo_idle (hsame.trans hready)] at hrun'
      cases hrun; cases hrun'; exact h
    | true =>
      rw [commitUpTo_succ_of_ready n hready] at hrun
      rw [commitUpTo_succ_of_ready n (hsame.trans hready)] at hrun'
      exact Rearranged.commitUpTo n h.retireHead hrun hrun'

theorem Rearranged.commit (h : Rearranged s s') (hrun : commit s = .ok () t) (hrun' : commit s' = .ok () t') :
    Rearranged t t' := by
  rw [Machine.commit, h.cfg] at hrun'
  exact h.commitUpTo _ hrun hrun'

theorem holdsTag_eq_any (latch : List Lane) (o : Option Nat) :
    holdsTag latch o = (laneRecords latch).any fun c => c.drTag == o := by
  rw [holdsTag, laneRecords, List.any_map, List.any_filter]
  rfl

/-- Two ROBs of one length whose slots agree. -/
theorem rob_eq (hlength : s'.rob.length = s.rob.length) (hslot : ∀ u, s'.robAt u = s.robAt u) : s'.rob = s.rob :=
  List.ext_getElem hlength fun u hu hu' => by
    have hat := hslot u
    rwa [State.robAt, State.robAt, List.getD_eq_getElem _ _ hu, List.getD_eq_getElem _ _ hu'] at hat

theorem Rearranged.writeback (h : Rearranged s s') (hwidth : s.latchEX.length = s.cfg.wbWidth)
    (hwidth' : s'.latchEX.length = s'.cfg.wbWidth) (hw : WrittenUpTo s s.cfg.wbWidth t)
    (hw' : WrittenUpTo s' s'.cfg.wbWidth t') : Rearranged t t' := by
  obtain ⟨hslot, hEX⟩ := hw.done hwidth
  obtain ⟨hslot', hEX'⟩ := hw'.done hwidth'
  have hframe := hw.frame
  have hframe' := hw'.frame
  unfold Stage.Frame at hframe hframe'
  have hrob : t'.rob = t.rob := by
    refine rob_eq (hw'.robLength.trans (h.rob ▸ hw.robLength.symm)) fun u => ?_
    have htag (o : Option Nat) : holdsTag s'.latchEX o = holdsTag s.latchEX o := by
      rw [holdsTag_eq_any, holdsTag_eq_any, h.latchEX.any_eq]
    simp only [hslot, hslot', writtenSlot, htag, h.robAt]
  have hempty {latch : List Lane} : laneRecords (latch.map fun l => { l with valid := false }) = [] :=
    laneRecords_of_all_invalid fun l hl => by
      obtain ⟨_, -, rfl⟩ := List.mem_map.mp hl
      rfl
  refine ⟨?_, ?_, ?_, ?_, ?_, ?_⟩
  · have hrest : t.rest = { s.rest with rob := t.rob } := by rw [hframe]; rfl
    have hrest' : t'.rest = { s'.rest with rob := t'.rob } := by rw [hframe']; rfl
    rw [hrest, hrest', h.rest, hrob]
  · rw [hframe, hframe']; exact h.latchFE
  · rw [hframe, hframe']; exact h.latchID
  · rw [hframe, hframe']; exact h.latchSC
  · rw [hEX, hEX', hempty, hempty]
  · rw [hframe, hframe']; exact h.queue

theorem Rearranged.early (h : Rearranged s s') (he : Early s s1 s2 p) (he' : Early s' s1' s2' p') :
    Rearranged s2 s2' :=
  (h.counted.commit he.commit he'.commit).writeback he.core1.backend.widths.latchEX he'.core1.backend.widths.latchEX
    he.written he'.written

/-! ## Execute -/

/-- The oldest finished records, as many as there is room for, are the same whatever the slots. -/
theorem drained_subset {kept kept' : List Inst} (hqueue : (kept ++ moved).Perm (kept' ++ moved'))
    (hdistinct : ((kept ++ moved).map fun c => c.seq).Nodup) (hlength : moved.length = moved'.length)
    (hfinished : ∀ c ∈ moved, c.wait = 0) (hfinished' : ∀ c ∈ moved', c.wait = 0)
    (holdest : ∀ c ∈ moved, ∀ d ∈ kept, d.wait = 0 → c.seq ≤ d.seq)
    (holdest' : ∀ c ∈ moved', ∀ d ∈ kept', d.wait = 0 → c.seq ≤ d.seq) : moved'.Perm moved := by
  have hnodup := hdistinct.of_map _
  have hnodup' : (kept' ++ moved').Nodup := hqueue.nodup_iff.mp hnodup
  have hinj {c d : Inst} (hc : c ∈ kept ++ moved) (hd : d ∈ kept ++ moved) (hseq : c.seq = d.seq) : c = d :=
    List.inj_on_of_nodup_map hdistinct hc hd hseq
  have hsubperm {a b : List Inst} (ha : a.Nodup) (hsub : a ⊆ b) (hle : b.length ≤ a.length) : a.Perm b :=
    (ha.subperm hsub).perm_of_length_le hle
  by_cases hsub : moved ⊆ moved'
  · exact (hsubperm (List.nodup_append.mp hnodup).2.1 hsub hlength.ge).symm
  · refine hsubperm (List.nodup_append.mp hnodup').2.1 (fun d hd => ?_) hlength.le
    obtain ⟨c, hc, hc'⟩ : ∃ c ∈ moved, c ∉ moved' := by simpa [List.subset_def] using hsub
    have hkept' : c ∈ kept' := (List.mem_append.mp (hqueue.subset (List.mem_append_right _ hc))).resolve_right hc'
    have hall : d ∈ kept ++ moved := hqueue.symm.subset (List.mem_append_right _ hd)
    refine (List.mem_append.mp hall).resolve_left fun hkept => ?_
    have hle := holdest c hc d hkept (hfinished' d hd)
    have hge := holdest' d hd c hkept' (hfinished c hc)
    obtain rfl := hinj (List.mem_append_right _ hc) hall (Nat.le_antisymm hle hge)
    exact hc' hd

/-- How many records the drain moves: all that have finished, or as many as the execute latch has room for. -/
theorem Executed.length_moved (h : Executed s t moved) : moved.length = min
    ((((exeqRecords s ++ (multis s.cfg s.latchSC).map (Inst.entering s.cfg)).map Inst.aged).countP fun c => c.wait == 0))
    (s.latchEX.length - (singles s.cfg s.latchSC).length) := by
  have hall : moved.countP (fun c => c.wait == 0) = moved.length :=
    List.countP_eq_length.mpr fun c hc => beq_iff_eq.mpr (h.finished c hc)
  have hput := h.latchEX.length_eq
  rw [← laneCount_eq_length, List.length_append] at hput
  have hle : laneCount t.latchEX ≤ t.latchEX.length := List.countP_le_length
  have hEX := h.lengthEX
  rw [← h.queue.countP_eq, List.countP_append, hall]
  rcases h.stop with hnone | hfull
  · have hkept : (exeqRecords t).countP (fun c => c.wait == 0) = 0 :=
      List.countP_eq_zero.mpr fun c hc => by simpa using hnone c hc
    omega
  · have hcount : laneCount t.latchEX = t.latchEX.length := List.countP_eq_length.mpr hfull
    omega

theorem Executed.distinct (h : Executed s t moved) (hexec : ExecOk t) :
    ((exeqRecords t ++ moved).map fun c => c.seq).Nodup := by
  have hsub : (exeqRecords t ++ moved).Sublist
      (laneRecords t.latchSC ++ exeqRecords t ++ (singles s.cfg s.latchSC ++ moved)) :=
    (List.sublist_append_right ..).append (List.sublist_append_right ..)
  exact (((h.latchEX.append_left _).map _).nodup_iff.mp hexec.distinct).sublist (hsub.map _)

theorem Rearranged.execute (h : Rearranged s s') (hEX : s.latchEX.length = s'.latchEX.length) (hx : Executed s t moved)
    (hx' : Executed s' t' moved') (hexec : ExecOk t) : Rearranged t t' := by
  have hframe := hx.frame
  have hframe' := hx'.frame
  unfold Stage.Frame at hframe hframe'
  have hsingles : (singles s.cfg s.latchSC).Perm (singles s'.cfg s'.latchSC) := by
    rw [h.cfg]
    exact h.latchSC.filter _
  have hmultis : (multis s.cfg s.latchSC).Perm (multis s'.cfg s'.latchSC) := by
    rw [h.cfg]
    exact h.latchSC.filter _
  have haged : ((exeqRecords s ++ (multis s.cfg s.latchSC).map (Inst.entering s.cfg)).map Inst.aged).Perm
      ((exeqRecords s' ++ (multis s'.cfg s'.latchSC).map (Inst.entering s'.cfg)).map Inst.aged) := by
    refine (h.queue.append ?_).map _
    rw [h.cfg] at hmultis ⊢
    exact hmultis.map _
  have hqueue : (exeqRecords t ++ moved).Perm (exeqRecords t' ++ moved') := hx.queue.trans (haged.trans hx'.queue.symm)
  have hlength : moved.length = moved'.length := by
    rw [hx.length_moved, hx'.length_moved, haged.countP_eq, hsingles.length_eq, hEX]
  have hmoved := drained_subset hqueue (hx.distinct hexec) hlength hx.finished hx'.finished hx.oldest hx'.oldest
  have hempty {latch : List Lane} : laneRecords (latch.map fun l => { l with valid := false }) = [] :=
    laneRecords_of_all_invalid fun l hl => by
      obtain ⟨_, -, rfl⟩ := List.mem_map.mp hl
      rfl
  refine ⟨?_, ?_, ?_, ?_, hx.latchEX.trans ((hsingles.append hmoved.symm).trans hx'.latchEX.symm), ?_⟩
  · have hrest : t.rest = s.rest := by rw [hframe]; rfl
    have hrest' : t'.rest = s'.rest := by rw [hframe']; rfl
    rw [hrest, hrest', h.rest]
  · rw [hframe, hframe']; exact h.latchFE
  · rw [hframe, hframe']; exact h.latchID
  · rw [hx.latchSC, hx'.latchSC, hempty, hempty]
  · exact (List.perm_append_right_iff moved).mp (hqueue.trans (hmoved.append_left _))

end

end Sys2Proof.Machine
end

section
/-! PROOFS. The stages from Schedule to Fetch on two machines that hold the same records in other lanes and slots, and the whole
tick (spec/49_properties.md section 6). -/

namespace Sys2Proof.Machine

section
variable {s s' t t' u u' v v' s1 s2 s3 s4 s5 s1' s2' s3' s4' s5' : State} {p p' i j m m' n n' : Nat} {c d : Inst}
  {moved moved' : List Inst} {item : TraceItem}

/-- What every lane keeps of two runs side by side, the loops keep. -/
theorem forLanes_keeps₂ {P : State → State → Prop} {f : Nat → State → Res Unit}
    (hf : ∀ k u u' v v', P u u' → f k u = .ok () v → f k u' = .ok () v' → P v v') :
    ∀ ks {u u' v v' : State}, P u u' → forLanes f ks u = .ok () v → forLanes f ks u' = .ok () v' → P v v'
  | [], _, _, _, _, hu, hrun, hrun' => by cases hrun; cases hrun'; exact hu
  | k :: ks, u, u', _, _, hu, hrun, hrun' => by
    obtain ⟨_, w, hw, hrest⟩ := Res.bind_eq_ok.mp hrun
    obtain ⟨_, w', hw', hrest'⟩ := Res.bind_eq_ok.mp hrun'
    exact forLanes_keeps₂ hf ks (hf k u u' w w' hu hw hw') hrest hrest'

/-! ## Schedule -/

/-- Which lanes of a latch are in use. -/
def used (latch : List Lane) : List Bool := latch.map fun l => l.valid

theorem length_eq_of_used {latch latch' : List Lane} (h : used latch = used latch') : latch.length = latch'.length := by
  simpa [used] using congrArg List.length h

theorem valid_eq_of_used {latch latch' : List Lane} (h : used latch = used latch') (i : Nat) :
    (latch.getD i .empty).valid = (latch'.getD i .empty).valid := by
  have hget (l : List Lane) : (used l).getD i false = (l.getD i .empty).valid := by
    rw [used, List.getD_eq_getElem?_getD, List.getD_eq_getElem?_getD, List.getElem?_map]
    cases l[i]? <;> rfl
  rw [← hget, h, hget]

/-- The same record put into the same free lane. -/
theorem records_set_perm {latch latch' : List Lane} {l l' : Lane} (hperm : (laneRecords latch).Perm (laneRecords latch'))
    (hused : used latch = used latch') (hfree : (latch.getD i .empty).valid = false) (hl : l.valid = true)
    (hl' : l'.valid = true) (hinst : l.inst = l'.inst) :
    (laneRecords (latch.set i l)).Perm (laneRecords (latch'.set i l')) ∧ used (latch.set i l) = used (latch'.set i l') := by
  have hlength := length_eq_of_used hused
  refine ⟨?_, by rw [used, used, List.map_set, List.map_set, hl, hl', ← used, ← used, hused]⟩
  by_cases hi : i < latch.length
  · have hfree' : (latch'.getD i .empty).valid = false := valid_eq_of_used hused i ▸ hfree
    refine (laneRecords_set_valid_perm hi hfree hl).trans (.trans ?_
      (laneRecords_set_valid_perm (hlength ▸ hi) hfree' hl').symm)
    rw [hinst]
    exact hperm.cons _
  · rwa [List.set_eq_of_length_le (by omega), List.set_eq_of_length_le (by omega)]

theorem firstInOrder_rest (s : State) : ∀ ts, firstInOrder s.rest ts = firstInOrder s ts
  | [] => rfl
  | t :: ts => by
    rw [firstInOrder, firstInOrder, firstInOrder_rest s ts]
    rfl

theorem select_rest (s : State) : select s.rest = select s := by
  have hin : selectInOrder s.rest = selectInOrder s := firstInOrder_rest s (robOrder s)
  rw [select, hin, select]
  rfl

theorem Rearranged.scheduleLane (h : Rearranged u u') (hused : used u.latchSC = used u'.latchSC)
    (hrun : scheduleLane i u = .ok () v) (hrun' : scheduleLane i u' = .ok () v') :
    Rearranged v v' ∧ used v.latchSC = used v'.latchSC := by
  have hvalid : (u.scAt i).valid = (u'.scAt i).valid := valid_eq_of_used hused i
  have hselect : select u' = select u := by rw [← select_rest, h.rest, select_rest]
  rcases scheduleLane_cases hrun with ⟨rfl, hidle⟩ | ⟨g, hg⟩
  · rcases scheduleLane_cases hrun' with ⟨rfl, -⟩ | ⟨g, hg⟩
    · exact ⟨h, hused⟩
    · rcases hidle with hfull | hnone
      · exact absurd (hg.laneFree.symm.trans (hvalid.symm.trans hfull)) (by decide)
      · cases hg.selected.symm.trans (hselect.trans hnone)
  · rcases scheduleLane_cases hrun' with ⟨rfl, hidle⟩ | ⟨g', hg'⟩
    · rcases hidle with hfull | hnone
      · exact absurd (hg.laneFree.symm.trans (hvalid.trans hfull)) (by decide)
      · cases hg.selected.symm.trans (hselect.symm.trans hnone)
    · obtain rfl : g' = g := Option.some.inj (hg'.selected.symm.trans (hselect.trans hg.selected))
      have hframe := hg.frame
      have hframe' := hg'.frame
      have hset := records_set_perm (l := { u.scAt i with valid := true, inst := (u.robAt g').inst })
        (l' := { u'.scAt i with valid := true, inst := (u'.robAt g').inst }) h.latchSC hused hg.laneFree rfl rfl
        (by rw [h.robAt])
      have hSC : v.latchSC = u.latchSC.set i { u.scAt i with valid := true, inst := (u.robAt g').inst } := by rw [hframe]
      have hSC' : v'.latchSC = u'.latchSC.set i { u'.scAt i with valid := true, inst := (u'.robAt g').inst } := by
        rw [hframe']
      rw [hSC, hSC']
      refine ⟨⟨?_, ?_, ?_, by rw [hSC, hSC']; exact hset.1, ?_, ?_⟩, hset.2⟩
      · have hrest : v.rest = { u.rest with rob := u.rob.set g' { u.robAt g' with exec := true } } := by rw [hframe]; rfl
        have hrest' : v'.rest = { u'.rest with rob := u'.rob.set g' { u'.robAt g' with exec := true } } := by
          rw [hframe']; rfl
        rw [hrest, hrest', h.rest, h.rob, h.robAt]
      · rw [hframe, hframe']; exact h.latchFE
      · rw [hframe, hframe']; exact h.latchID
      · rw [hframe, hframe']; exact h.latchEX
      · rw [hframe, hframe']; exact h.queue

theorem Rearranged.schedule (h : Rearranged s s') (hused : used s.latchSC = used s'.latchSC)
    (hrun : schedule s = .ok () t) (hrun' : schedule s' = .ok () t') : Rearranged t t' := by
  rw [Machine.schedule, h.cfg] at hrun'
  have hlanes := forLanes_keeps₂ (P := fun u u' => Rearranged u u' ∧ used u.latchSC = used u'.latchSC)
    (f := Machine.scheduleLane) (fun _ _ _ _ _ hu hv hv' => hu.1.scheduleLane hu.2 hv hv') _ ⟨h, hused⟩ hrun hrun'
  exact hlanes.1

/-! ## Issue -/

/-- The oldest record of a latch is the same in any order of its lanes. -/
theorem oldest_eq {latch latch' : List Lane} (hperm : (laneRecords latch).Perm (laneRecords latch'))
    (hdistinct : (latchSeqs latch).Nodup) (hj : oldestLane latch = some i) (hj' : oldestLane latch' = some j) :
    (latch'.getD j .empty).inst = (latch.getD i .empty).inst := by
  obtain ⟨hv, hleast⟩ := oldestLane_eq_some hj
  obtain ⟨hv', hleast'⟩ := oldestLane_eq_some hj'
  rw [latchSeqs_eq_map] at hdistinct hleast hleast'
  have hmem := inst_mem_laneRecords hv
  have hmem' := hperm.symm.subset (inst_mem_laneRecords hv')
  exact List.inj_on_of_nodup_map hdistinct hmem' hmem (Nat.le_antisymm
    (hleast' _ (List.mem_map_of_mem (hperm.subset hmem))) (hleast _ (List.mem_map_of_mem hmem')))

theorem DecodedOk.distinct (hs : DecodedOk s) : (latchSeqs s.latchID).Nodup :=
  hs.seqs.nodup_iff.mpr List.nodup_range'

theorem Rearranged.issued (h : Rearranged s s') {x : Inst} (hv : (s.idAt i).valid = true)
    (hv' : (s'.idAt j).valid = true) (hinst : (s'.idAt j).inst = (s.idAt i).inst)
    (ht : Issued s t i x) (ht' : Issued s' t' j x) : Rearranged t t' := by
  have hframe := ht.frame
  have hframe' := ht'.frame
  have hrat : t'.rat = t.rat := by
    refine List.ext_getElem (by rw [ht'.ratLength, h.rat, ht.ratLength]) fun r hr hr' => ?_
    have hat : t'.ratAt r = t.ratAt r := by
      have hsame : s'.ratAt r = s.ratAt r := by rw [State.ratAt, h.rat, State.ratAt]
      rw [ht'.ratAt, ht.ratAt, h.rat, h.robTail, hsame]
    rwa [State.ratAt, State.ratAt, List.getD_eq_getElem _ _ hr, List.getD_eq_getElem _ _ hr'] at hat
  refine ⟨?_, ?_, ?_, ?_, ?_, ?_⟩
  · have hrest : t.rest = { s.rest with
        rat := t.rat
        rob := s.rob.set s.robTail { valid := true, exec := false, ready := false, inst := x }
        robTail := nextSlot s.rest s.robTail } := by rw [hframe]; rfl
    have hrest' : t'.rest = { s'.rest with
        rat := t'.rat
        rob := s'.rob.set s'.robTail { valid := true, exec := false, ready := false, inst := x }
        robTail := nextSlot s'.rest s'.robTail } := by rw [hframe']; rfl
    rw [hrest, hrest', h.rest, h.rob, h.robTail, hrat]
  · rw [hframe, hframe']; exact h.latchFE
  · have hrecords := laneRecords_set_invalid_perm (l := { s.idAt i with valid := false }) hv rfl
    have hrecords' := laneRecords_set_invalid_perm (l := { s'.idAt j with valid := false }) hv' rfl
    have hall := hrecords.trans (h.latchID.trans hrecords'.symm)
    have hsame : (s'.latchID.getD j .empty).inst = (s.latchID.getD i .empty).inst := hinst
    rw [hsame] at hall
    rw [ht.latchID, ht'.latchID]
    exact hall.cons_inv
  · rw [hframe, hframe']; exact h.latchSC
  · rw [hframe, hframe']; exact h.latchEX
  · rw [hframe, hframe']; exact h.queue

theorem Rearranged.issueUpTo : ∀ n {s s' t t' : State}, Rearranged s s' → IssueOk s → IssueOk s' →
    issueUpTo n s = .ok () t → issueUpTo n s' = .ok () t' → Rearranged t t'
  | 0, _, _, _, _, h, _, _, hrun, hrun' => by cases hrun; cases hrun'; exact h
  | n + 1, s, s', t, t', h, hs, hs', hrun, hrun' => by
    have hspace : robHasSpace s' = robHasSpace s := show robHasSpace s'.rest = robHasSpace s.rest by rw [h.rest]
    have hcount : laneCount s'.latchID = laneCount s.latchID := by
      rw [laneCount_eq_length, laneCount_eq_length, h.latchID.length_eq]
    have hnone : oldestLane s'.latchID = none ↔ oldestLane s.latchID = none := by
      rw [oldestLane_eq_none, oldestLane_eq_none, hcount]
    rw [Machine.issueUpTo] at hrun hrun'
    rw [hspace] at hrun'
    cases hfull : robHasSpace s with
    | false =>
      rw [hfull] at hrun hrun'
      cases hrun; cases hrun'; exact h
    | true =>
      rw [hfull] at hrun hrun'
      cases hi : oldestLane s.latchID with
      | none =>
        rw [hi] at hrun
        rw [hnone.mpr hi] at hrun'
        cases hrun; cases hrun'; exact h
      | some i =>
        obtain ⟨j, hj⟩ : ∃ j, oldestLane s'.latchID = some j :=
          Option.ne_none_iff_exists'.mp fun hno => by cases hi.symm.trans (hnone.mp hno)
        rw [hi] at hrun
        rw [hj] at hrun'
        obtain ⟨_, v, hv, hrest⟩ := Res.bind_eq_ok.mp hrun
        obtain ⟨_, v', hv', hrest'⟩ := Res.bind_eq_ok.mp hrun'
        have hinst : (s'.idAt j).inst = (s.idAt i).inst := oldest_eq h.latchID hs.decoded.distinct hi hj
        have hone := issued_of_issueOne hv
        have hone' := issued_of_issueOne hv'
        have hmade : issuedInst s' (s'.idAt j).inst = issuedInst s (s.idAt i).inst := by
          rw [hinst]
          show issuedInst s'.rest _ = issuedInst s.rest _
          rw [h.rest]
        obtain ⟨hvi, -⟩ := oldestLane_eq_some hi
        obtain ⟨hvj, -⟩ := oldestLane_eq_some hj
        have hnext : Rearranged v v' := h.issued hvi hvj hinst hone (hmade ▸ hone')
        exact Rearranged.issueUpTo n hnext (hs.issued hone hi) (hs'.issued hone' hj) hrest hrest'

theorem Rearranged.issue (h : Rearranged s s') (hs : IssueOk s) (hs' : IssueOk s') (hrun : issue s = .ok () t)
    (hrun' : issue s' = .ok () t') : Rearranged t t' := by
  rw [Machine.issue, h.cfg] at hrun'
  exact h.issueUpTo _ hs hs' hrun hrun'

/-! ## Decode -/

/-- The front end holds consecutive numbers, so its records and the number decoded say which records are decoded. -/
theorem FrontOk.records (hs : FrontOk s) :
    (laneRecords s.latchID ++ laneRecords s.latchFE).filter
        (fun c => decide (c.seq ≤ s.retiredCount + robCount s + laneCount s.latchID)) = laneRecords s.latchID ∧
      (laneRecords s.latchID ++ laneRecords s.latchFE).filter
        (fun c => !decide (c.seq ≤ s.retiredCount + robCount s + laneCount s.latchID)) = laneRecords s.latchFE := by
  obtain ⟨hID, hFE, -⟩ := hs
  rw [latchSeqs_eq_map] at hID hFE
  have hlow : ∀ c ∈ laneRecords s.latchID, c.seq ≤ s.retiredCount + robCount s + laneCount s.latchID := fun c hc => by
    have hmem := List.mem_range'_1.mp (hID.subset (List.mem_map_of_mem hc))
    omega
  have hhigh : ∀ c ∈ laneRecords s.latchFE, ¬c.seq ≤ s.retiredCount + robCount s + laneCount s.latchID := fun c hc => by
    have hmem := List.mem_range'_1.mp (hFE.subset (List.mem_map_of_mem hc))
    omega
  rw [List.filter_append, List.filter_append]
  constructor
  · rw [List.filter_eq_self.mpr fun c hc => decide_eq_true (hlow c hc),
      List.filter_eq_nil_iff.mpr fun c hc => by simpa using hhigh c hc, List.append_nil]
  · rw [List.filter_eq_nil_iff.mpr fun c hc => by simpa using hlow c hc,
      List.filter_eq_self.mpr fun c hc => by simpa using hhigh c hc, List.nil_append]

theorem Rearranged.decode (h : Rearranged s s') (hlength : s.latchID.length = s.cfg.pipeWidth)
    (hlength' : s'.latchID.length = s'.cfg.pipeWidth) (hd : DecodedBy s s.cfg.pipeWidth t)
    (hd' : DecodedBy s' s'.cfg.pipeWidth t') (hfront : FrontOk t) (hfront' : FrontOk t') : Rearranged t t' := by
  have hframe := hd.frame
  have hframe' := hd'.frame
  unfold Stage.Frame at hframe hframe'
  have hrest : t'.rest = t.rest := by
    have hrest : t.rest = s.rest := by rw [hframe]; rfl
    have hrest' : t'.rest = s'.rest := by rw [hframe']; rfl
    rw [hrest, hrest', h.rest]
  have hbefore : t'.retiredCount + Machine.robCount t' = t.retiredCount + Machine.robCount t :=
    show t'.rest.retiredCount + Machine.robCount t'.rest = t.rest.retiredCount + Machine.robCount t.rest by rw [hrest]
  have hcount : laneCount t'.latchID = laneCount t.latchID := by
    rw [hd.laneCount_ID hlength, hd'.laneCount_ID hlength', h.cfg]
    simp only [laneCount_eq_length, h.latchID.length_eq, h.latchFE.length_eq]
  have hall : (laneRecords t.latchID ++ laneRecords t.latchFE).Perm (laneRecords t'.latchID ++ laneRecords t'.latchFE) :=
    hd.records.trans ((h.latchID.append h.latchFE).trans hd'.records.symm)
  obtain ⟨hID, hFE⟩ := hfront.records
  obtain ⟨hID', hFE'⟩ := hfront'.records
  rw [hbefore, hcount] at hID' hFE'
  refine ⟨hrest, ?_, ?_, ?_, ?_, ?_⟩
  · rw [← hFE, ← hFE']
    exact hall.filter _
  · rw [← hID, ← hID']
    exact hall.filter _
  · rw [hframe, hframe']; exact h.latchSC
  · rw [hframe, hframe']; exact h.latchEX
  · rw [hframe, hframe']; exact h.queue

/-! ## Fetch -/

theorem FilledBy.laneCount (h : FilledBy item s n m t) : laneCount t.latchFE = laneCount s.latchFE + m := by
  rw [laneCount_eq_length, laneCount_eq_length, h.records.length_eq, List.length_append, List.length_map,
    List.length_range]

theorem FilledBy.laneCount_full (h : FilledBy item s n m t) (hn : n = s.latchFE.length) :
    Machine.laneCount s.latchFE + m = s.latchFE.length := by
  rw [← h.laneCount, laneCount_eq_of_full fun i hi => h.full i (by rw [hn, ← h.length]; exact hi), h.length]

theorem EndedBy.laneCount_lt (h : EndedBy item s n m v t) (hn : n < s.latchFE.length) :
    Machine.laneCount s.latchFE + m < s.latchFE.length := by
  rw [← h.filled.laneCount, ← h.filled.length, ← any_invalid_iff, List.any_eq_true]
  have hlt : n < v.latchFE.length := h.filled.length.symm ▸ hn
  refine ⟨v.feAt n, ?_, by rw [h.free]; rfl⟩
  rw [State.feAt, List.getD_eq_getElem _ _ hlt]
  exact List.getElem_mem hlt

section
variable (h : Rearranged s s')
include h

theorem Rearranged.itemAt (k : Nat) : itemAt item s' k = itemAt item s k :=
  show Machine.itemAt item s'.rest k = Machine.itemAt item s.rest k by rw [h.rest]

theorem Rearranged.newInst (k : Nat) : newInst item s' k = newInst item s k :=
  show Machine.newInst item s'.rest k = Machine.newInst item s.rest k by rw [h.rest]

theorem Rearranged.filled (ht : FilledBy item s n m t) (ht' : FilledBy item s' n' m t') : Rearranged t t' := by
  have hframe := ht.frame
  have hframe' := ht'.frame
  refine ⟨?_, ?_, ?_, ?_, ?_, ?_⟩
  · have hrest : t.rest = { s.rest with lastSeq := s.rest.lastSeq + m, tracePos := s.rest.tracePos + m } := by
      rw [hframe]; rfl
    have hrest' : t'.rest = { s'.rest with lastSeq := s'.rest.lastSeq + m, tracePos := s'.rest.tracePos + m } := by
      rw [hframe']; rfl
    rw [hrest, hrest', h.rest]
  · refine ht.records.trans (.trans ?_ ht'.records.symm)
    rw [List.map_congr_left fun k _ => h.newInst k]
    exact h.latchFE.append_right _
  · rw [hframe, hframe']; exact h.latchID
  · rw [hframe, hframe']; exact h.latchSC
  · rw [hframe, hframe']; exact h.latchEX
  · rw [hframe, hframe']; exact h.queue

theorem Rearranged.endAt : Rearranged (endAt item s) (endAt item s') where
  __ := h
  rest := show Machine.endAt item s'.rest = Machine.endAt item s.rest by rw [h.rest]

theorem Rearranged.fetch (hlength : s.latchFE.length = s'.latchFE.length)
    (hcases : (∃ m, FilledBy item s s.latchFE.length m t) ∨ ∃ n < s.latchFE.length, ∃ m v, EndedBy item s n m v t)
    (hcases' : (∃ m, FilledBy item s' s'.latchFE.length m t') ∨ ∃ n < s'.latchFE.length, ∃ m v, EndedBy item s' n m v t') :
    Rearranged t t' := by
  have hcount : laneCount s'.latchFE = laneCount s.latchFE := by
    rw [laneCount_eq_length, laneCount_eq_length, h.latchFE.length_eq]
  rcases hcases with ⟨m, ht⟩ | ⟨n, hn, m, v, ht⟩
  · have hfree := ht.laneCount_full rfl
    rcases hcases' with ⟨m', ht'⟩ | ⟨n', hn', m', v', ht'⟩
    · have hfree' := ht'.laneCount_full rfl
      obtain rfl : m = m' := by omega
      exact h.filled ht ht'
    · have hlt := ht'.laneCount_lt hn'
      obtain ⟨x, hx⟩ := ht.items m' (by omega)
      exact absurd ((h.itemAt m').trans hx) (ht'.item x)
  · rcases hcases' with ⟨m', ht'⟩ | ⟨n', hn', m', v', ht'⟩
    · have hlt := ht.laneCount_lt hn
      have hfree' := ht'.laneCount_full rfl
      obtain ⟨x, hx⟩ := ht'.items m (by omega)
      exact absurd ((h.itemAt m).symm.trans hx) (ht.item x)
    · obtain rfl : m = m' := by
        rcases Nat.lt_trichotomy m m' with hlt | heq | hgt
        · obtain ⟨x, hx⟩ := ht'.filled.items m hlt
          exact absurd ((h.itemAt m).symm.trans hx) (ht.item x)
        · exact heq
        · obtain ⟨x, hx⟩ := ht.filled.items m' hgt
          exact absurd ((h.itemAt m').trans hx) (ht'.item x)
      rw [ht.eq, ht'.eq, h.itemAt]
      exact (h.filled ht.filled ht'.filled).endAt

end

/-! ## The tick -/

theorem Late.length (h : Late s2 s3 s4 s5 moved m) (hID : s2.latchID.length = s2.cfg.pipeWidth) :
    s5.latchID.length = s5.cfg.pipeWidth := by
  obtain ⟨-, hID4, -⟩ := h.latchFE
  obtain ⟨-, -, -, hstalls, -⟩ := (path_issue h.issue).sameFixed
  rw [length_of_stalls_eq hstalls, hID4, hID, h.issuedBy.frame.cfg, h.sameRecords.cfg]

theorem used_of_all_free (latch : List Lane) :
    used (latch.map fun l => { l with valid := false }) = List.replicate latch.length false := by
  rw [used, List.map_map]
  exact List.map_const' ..

theorem Rearranged.late (h : Rearranged s2 s2') (hID : s2.latchID.length = s2.cfg.pipeWidth)
    (hID' : s2'.latchID.length = s2'.cfg.pipeWidth) (hSC : s2.latchSC.length = s2'.latchSC.length)
    (hEX : s2.latchEX.length = s2'.latchEX.length) (hl : Late s2 s3 s4 s5 moved m)
    (hl' : Late s2' s3' s4' s5' moved' m') : Rearranged (Machine.decode s5) (Machine.decode s5') := by
  have h3 := h.execute hEX hl.executed hl'.executed hl.core3.backend.exec
  have hused : used s3.latchSC = used s3'.latchSC := by
    rw [hl.executed.latchSC, hl'.executed.latchSC, used_of_all_free, used_of_all_free, hSC]
  have h4 := h3.schedule hused hl.schedule hl'.schedule
  have h5 := h4.issue hl.core4.issueOk hl'.core4.issueOk hl.issue hl'.issue
  exact h5.decode (hl.length hID) (hl'.length hID') hl.decoded hl'.decoded hl.front hl'.front

/-- A tick of two running machines that does not fault. -/
theorem Rearranged.step (h : Rearranged s s') (hinv : Inv s) (hinv' : Inv s') (hhalted : s.halted = false)
    (hrun : step s = .next t) (hrun' : step s' = .next t') (hfault : t.fault = none) (hfault' : t'.fault = none) :
    Rearranged t t' := by
  obtain ⟨s1, s2, p, s3, s4, s5, moved, m, hearly, hlate, hat, rfl⟩ := hinv.stages hhalted hrun hfault
  obtain ⟨s1', s2', p', s3', s4', s5', moved', m', hearly', hlate', hat', rfl⟩ :=
    hinv'.stages (h.halted.trans hhalted) hrun' hfault'
  have hshaped := wellShaped_iff.mp hinv.shape
  have hshaped' := wellShaped_iff.mp hinv'.shape
  have h2 := h.early hearly hearly'
  obtain ⟨-, hID⟩ := hearly.latches
  obtain ⟨-, hID'⟩ := hearly'.latches
  have hSC : s2.latchSC.length = s2'.latchSC.length := by
    rw [hearly.core2.backend.widths.latchSC, hearly'.core2.backend.widths.latchSC, h2.cfg]
  have hEX : s2.latchEX.length = s2'.latchEX.length := by
    rw [hearly.core2.backend.widths.latchEX, hearly'.core2.backend.widths.latchEX, h2.cfg]
  have hdecode := h2.late (by rw [hID, hshaped.latchID.length, hearly.cfg])
    (by rw [hID', hshaped'.latchID.length, hearly'.cfg]) hSC hEX hlate hlate'
  rw [h.nextItem]
  cases heos : s.eosSeen with
  | true =>
    rw [hat.fetch_ended heos, hat'.fetch_ended (h.eosSeen.trans heos)]
    exact hdecode
  | false =>
    refine hdecode.fetch (item := Machine.nextItem s) (by rw [hat.lengthFE, hat'.lengthFE, h.cfg]) ?_ ?_
    · rw [hat.lengthFE]
      exact hat.fetch_cases heos _
    · rw [hat'.lengthFE]
      exact hat'.fetch_cases (h.eosSeen.trans heos) _

theorem exeqDemand_perm (hcfg : s'.cfg = s.cfg) (h : s.latchSC.Perm s'.latchSC) : exeqDemand s' = exeqDemand s := by
  rw [exeqDemand, exeqDemand, hcfg, h.countP_eq]

/-- Settles O54: the rearranged machine has the invariant too, so its tick goes through the same stages, and each of them answers
the same records. -/
theorem lanePlacementIsImmaterial : Obligations.LanePlacementIsImmaterial := by
  intro s s' t hinv hFE hID hSC hEX hq hframe hrun
  have hinv' : Inv s' := hframe ▸ hinv.perm hFE hID hSC hEX hq
  have hsame : Rearranged s s' := by
    refine ⟨by rw [hframe]; rfl, laneRecords_perm hFE, laneRecords_perm hID, laneRecords_perm hSC, laneRecords_perm hEX,
      (hq.filter _).map _⟩
  have hrun' := step_eq_next hinv'.shape
  have ht := Host.Outcome.next.inj (hrun.symm.trans (step_eq_next hinv.shape))
  have hfault : (tick (nextItem s') s').fault = t.fault := by
    rw [ht]
    cases hhalted : s.halted with
    | true =>
      have hstop (u : State) (hu : u.halted = true) : tick (nextItem u) u = u :=
        if_neg (by rw [running, hu]; exact Bool.false_ne_true)
      rw [hstop s hhalted, hstop s' (hsame.halted.trans hhalted), hinv.noFault, hinv'.noFault]
    | false =>
      rw [hinv.fault_tick hhalted (itemOk_nextItem s),
        hinv'.fault_tick (hsame.halted.trans hhalted) (itemOk_nextItem s'), exeqDemand_perm hsame.cfg hSC, exeqFree,
        exeqFree, hq.countP_eq]
  refine ⟨_, hrun', hfault, fun hnone => ?_⟩
  have hstep : Rearranged t (tick (nextItem s') s') := by
    cases hhalted : s.halted with
    | true =>
      rw [eq_of_step_of_halted hhalted hrun, eq_of_step_of_halted (hsame.halted.trans hhalted) hrun']
      exact hsame
    | false => exact hsame.step hinv hinv' hhalted hrun hrun' hnone (hfault.trans hnone)
  exact ⟨hstep.frame, hstep.latchFE, hstep.latchID, hstep.latchSC, hstep.latchEX, hstep.queue⟩

end

end Sys2Proof.Machine
end

section
/-! PROOFS. A machine with at most one instruction in it, wherever the window, the lanes and the slots stand
(48_instruction_classes.md R259): what each stage does for it. -/

namespace Sys2Proof.Machine

/-- The machine holds the records `o` names and no others; its slot, if one is in use, is the head. -/
structure Alone (o : Occupancy) (s : State) : Prop where
  rob : RobOk s
  latchFE : laneRecords s.latchFE = o.fe.toList
  latchID : laneRecords s.latchID = o.id.toList
  latchSC : laneRecords s.latchSC = o.sc.toList
  latchEX : laneRecords s.latchEX = o.ex.toList
  queue : exeqRecords s = o.queue.toList
  count : robCount s = if o.slot.valid then 1 else 0
  slot : o.slot.valid = true → s.robAt s.robHead = o.slot

/-- `t` has the head and the run state of `s`, and meets the same item of the stream. -/
structure SameRun (s t : State) : Prop where
  robHead : t.robHead = s.robHead
  run : t.run = s.run
  item : nextItem t = nextItem s

section
variable {o : Occupancy} {s t : State} {x c : Inst} {g u : Nat}

theorem all_free_of_laneRecords {latch : List Lane} (h : laneRecords latch = []) : ∀ l ∈ latch, l.valid = false :=
  fun l hl => by
    by_contra hv
    have hmem := mem_laneRecords.mpr ⟨l, hl, by simpa using hv, rfl⟩
    rw [h] at hmem
    cases hmem

theorem free_of_laneRecords {latch : List Lane} (h : laneRecords latch = []) (k : Nat) :
    (latch.getD k .empty).valid = false := by
  by_contra hv
  rw [Bool.not_eq_false] at hv
  exact Bool.false_ne_true ((all_free_of_laneRecords h _ (lane_mem_of_valid hv)).symm.trans hv)

/-- A latch with one record in it: the lane that holds it. -/
theorem exists_lane_of_laneRecords {latch : List Lane} (h : laneRecords latch = [x]) :
    ∃ j, oldestLane latch = some j ∧ (latch.getD j .empty).valid = true ∧ (latch.getD j .empty).inst = x := by
  have hsome : oldestLane latch ≠ none := fun hnone => by
    rw [oldestLane_eq_none, laneCount_eq_length, h] at hnone
    cases hnone
  obtain ⟨j, hj⟩ := Option.ne_none_iff_exists'.mp hsome
  obtain ⟨hv, -⟩ := oldestLane_eq_some hj
  have hmem := inst_mem_laneRecords hv
  rw [h, List.mem_singleton] at hmem
  exact ⟨j, hj, hv, hmem⟩

section
variable (h : Alone o s)
include h

theorem Alone.eq_head (hv : (s.robAt u).valid = true) : u = s.robHead ∧ o.slot.valid = true := by
  obtain ⟨k, hk, hplace, -⟩ := h.rob.place_of_valid hv
  rw [h.count] at hk
  split at hk
  next hslot =>
    obtain rfl : k = 0 := by omega
    rw [Nat.add_zero, Nat.mod_eq_of_lt h.rob.headLt] at hplace
    exact ⟨hplace.symm, hslot⟩
  next => cases hk

theorem Alone.invalid (hslot : o.slot.valid = false) (u : Nat) : (s.robAt u).valid = false := by
  rw [Bool.eq_false_iff]
  exact fun hv => Bool.false_ne_true (hslot.symm.trans (h.eq_head hv).2)

theorem Alone.ratAt (hslot : o.slot.valid = false) (r : Nat) : s.ratAt r = none := by
  cases hr : s.ratAt r with
  | none => rfl
  | some g =>
    obtain ⟨hmap, -⟩ := h.rob.rat
    obtain ⟨hv, -⟩ := hmap r (h.rob.ratLength ▸ lt_length_of_ratAt hr) g hr
    exact absurd ((h.invalid hslot g).symm.trans hv) (by decide)

theorem Alone.robTail (hslot : o.slot.valid = false) : s.robTail = s.robHead := by
  obtain ⟨htail, -⟩ := h.rob.window
  rw [htail, h.count, hslot]
  exact Nat.mod_eq_of_lt h.rob.headLt

theorem Alone.of_sameRecords {o' : Occupancy} (hsame : SameRecords s t) (hFE : laneRecords t.latchFE = o'.fe.toList)
    (hID : laneRecords t.latchID = o'.id.toList) (hSC : laneRecords t.latchSC = o'.sc.toList)
    (hEX : laneRecords t.latchEX = o'.ex.toList) (hq : exeqRecords t = o'.queue.toList)
    (hvalid : o'.slot.valid = o.slot.valid) (hslot : o'.slot.valid = true → t.robAt s.robHead = o'.slot) : Alone o' t :=
  ⟨h.rob.of_sameRecords hsame, hFE, hID, hSC, hEX, hq, by rw [hsame.robCount, h.count, hvalid],
    fun hv => by rw [hsame.robHead]; exact hslot hv⟩

/-! ## Stages with nothing to do -/

theorem Alone.robHeadIsReady_eq : robHeadIsReady s = (o.slot.valid && o.slot.ready) := by
  rw [robHeadIsReady]
  cases hv : o.slot.valid with
  | false => rw [h.invalid hv]; rfl
  | true => rw [h.slot hv, hv]

theorem Alone.commit_idle (hslot : (o.slot.valid && o.slot.ready) = false) : commit s = .ok () s :=
  commitUpTo_idle (h.robHeadIsReady_eq.trans hslot) _

theorem Alone.writeback_idle (hex : o.ex = none) : writeback s = .ok () s :=
  writeback_of_empty (free_of_laneRecords (by rw [h.latchEX, hex]; rfl))

theorem Alone.execute_idle (hsc : o.sc = none) (hq : o.queue = none) : execute s = .ok () s := by
  refine execute_of_empty (free_of_laneRecords (by rw [h.latchSC, hsc]; rfl)) fun y hy => ?_
  have hnone := h.queue
  rw [hq] at hnone
  by_contra hv
  have hmem := mem_exeqRecords.mpr ⟨y, hy, by simpa using hv, rfl⟩
  rw [hnone] at hmem
  cases hmem

theorem Alone.select_eq_none (hslot : (o.slot.valid && !o.slot.exec) = false) : select s = none := by
  cases hg : select s with
  | none => rfl
  | some g =>
    obtain ⟨-, hcand, -⟩ := select_eq_some hg
    rw [candidate, Bool.and_eq_true] at hcand
    obtain ⟨rfl, hv⟩ := h.eq_head hcand.1
    rw [h.slot hv] at hcand
    rw [hcand.1, hcand.2] at hslot
    cases hslot

theorem Alone.schedule_idle (hslot : (o.slot.valid && !o.slot.exec) = false) : schedule s = .ok () s :=
  schedule_of_select (h.select_eq_none hslot)

theorem Alone.issue_idle (hid : o.id = none) : issue s = .ok () s :=
  issue_of_empty (free_of_laneRecords (by rw [h.latchID, hid]; rfl))

theorem Alone.decode_idle (hfe : o.fe = none) : decode s = s :=
  decode_of_empty (free_of_laneRecords (by rw [h.latchFE, hfe]; rfl))

/-! ## Decode -/

theorem Alone.decode (hlength : s.latchID.length = s.cfg.pipeWidth) (hstall : ∀ l ∈ s.latchID, l.stall = false)
    (hfe : o.fe = some x) (hid : o.id = none) :
    Alone { o with fe := none, id := some x } (decode s) ∧ SameRun s (Machine.decode s) := by
  obtain ⟨hd, -⟩ := decodedBy_decode hlength hstall
  have hframe := hd.frame
  unfold Stage.Frame at hframe
  have hFE : laneRecords s.latchFE = [x] := by rw [h.latchFE, hfe]; rfl
  have hID : laneRecords s.latchID = [] := by rw [h.latchID, hid]; rfl
  have hcount := hd.laneCount_ID hlength
  have hboth := hd.count
  have hwidth := s.cfg.one_le_pipeWidth
  simp only [laneCount_eq_length, hFE, hID, List.length_cons, List.length_nil] at hcount hboth
  have hFE' : laneRecords (Machine.decode s).latchFE = [] := List.eq_nil_of_length_eq_zero (by omega)
  have hrecords := hd.records
  rw [hFE', hFE, hID, List.append_nil, List.nil_append] at hrecords
  refine ⟨h.of_sameRecords ?_ hFE' (List.perm_singleton.mp hrecords) ?_ ?_ ?_ rfl fun hv => ?_, ?_⟩
  · rw [hframe]; exact .of_rob_eq rfl rfl rfl rfl rfl rfl
  · rw [hframe]; exact h.latchSC
  · rw [hframe]; exact h.latchEX
  · rw [hframe]; exact h.queue
  · rw [hframe]; exact h.slot hv
  · rw [hframe]; exact ⟨rfl, rfl, rfl⟩

/-! ## Issue -/

/-- The record that Issue makes in a machine with nothing else, in slot `g`. -/
def Inst.issuedAt (g : Nat) (x : Inst) : Inst :=
  { x with src1Tag := none, src1Ready := true, src2Tag := none, src2Ready := true, drTag := some g }

theorem Alone.issuedInst (hslot : o.slot.valid = false) (x : Inst) : issuedInst s x = x.issuedAt s.robHead := by
  have hnone (src : Option Nat) : src.bind s.ratAt = none := by
    cases src with
    | none => rfl
    | some r => exact h.ratAt hslot r
  rw [Machine.issuedInst, hnone, hnone, h.robTail hslot]
  rfl

theorem Alone.issue (hid : o.id = some x) (hslot : o.slot.valid = false) (hseq : x.seq = s.retiredCount + 1)
    (hdest : ∀ d ∈ x.dest, d < s.cfg.numArchRegs) : ∃ t, issue s = .ok () t ∧ SameRun s t ∧
      Alone { o with id := none, slot := { valid := true, exec := false, ready := false, inst := x.issuedAt s.robHead } }
        t := by
  have hID : laneRecords s.latchID = [x] := by rw [h.latchID, hid]; rfl
  obtain ⟨j, hj, hv, hinst⟩ := exists_lane_of_laneRecords hID
  have hnone : robCount s = 0 := by rw [h.count, hslot]; rfl
  have hspace : robHasSpace s = true := h.rob.robHasSpace_iff.mpr (hnone ▸ s.cfg.one_le_robSize)
  obtain ⟨t, ht⟩ := issueOne_ok hspace (fun r m hm => by rw [h.ratAt hslot r] at hm; cases hm) j
  have hone := issued_of_issueOne ht
  rw [show (s.idAt j).inst = x from hinst, h.issuedInst hslot] at hone
  have hframe := hone.frame
  have hempty : laneRecords t.latchID = [] := by
    have hperm := laneRecords_set_invalid_perm (l := { s.idAt j with valid := false }) hv rfl
    rw [hinst, hID] at hperm
    rw [hone.latchID]
    exact List.perm_nil.mp hperm.cons_inv
  refine ⟨t, ?_, ?_, ?_⟩
  · obtain ⟨n, hn⟩ := Nat.exists_eq_add_of_lt s.cfg.one_le_pipeWidth
    rw [Machine.issue, hn, issueUpTo, if_pos hspace, hj]
    show (issueOne j s).bind _ = _
    rw [ht, Res.bind_ok]
    exact issueUpTo_idle (oldestLane_of_empty (free_of_laneRecords hempty)) _
  · rw [hframe]; exact ⟨rfl, rfl, rfl⟩
  · refine ⟨hone.robOk h.rob ?_ hdest, ?_, hempty, ?_, ?_, ?_, ?_, fun _ => ?_⟩
    · rw [hnone, Nat.add_zero]
      exact hseq
    · rw [hframe]; exact h.latchFE
    · rw [hframe]; exact h.latchSC
    · rw [hframe]; exact h.latchEX
    · rw [hframe]; exact h.queue
    · rw [hone.robCount h.rob, hnone]; rfl
    · rw [hone.robHead, hone.robAt h.rob, if_pos (h.robTail hslot).symm]

/-! ## Schedule -/

theorem Alone.schedule (hwidth : s.latchSC.length = s.cfg.pipeWidth) (hsc : o.sc = none)
    (hvalid : o.slot.valid = true) (hexec : o.slot.exec = false) (h1 : o.slot.inst.src1Ready = true)
    (h2 : o.slot.inst.src2Ready = true) : ∃ t, schedule s = .ok () t ∧ SameRun s t ∧
      Alone { o with sc := some o.slot.inst, slot := { o.slot with exec := true } } t := by
  have hslot := h.slot hvalid
  have hSC : laneRecords s.latchSC = [] := by rw [h.latchSC, hsc]; rfl
  have hselect : select s = some s.robHead := by
    refine (select_iff h.rob.robLength h.rob.headLt h.rob.window).mpr ⟨?_, ?_, fun u hu => ?_⟩
    · rw [candidate, hslot, hvalid, hexec]; rfl
    · rw [operandsReady, hslot, h1, h2]; rfl
    · obtain ⟨rfl, -⟩ := h.eq_head (lt_robSize_of_candidate h.rob.robLength hu.1).2
      exact Nat.le_refl _
  have hfree : (s.scAt 0).valid = false := free_of_laneRecords hSC 0
  cases hlane : scheduleLane 0 s with
  | raised t => exact absurd hlane scheduleLane_ne_raised
  | ok _ t =>
    rcases scheduleLane_cases hlane with ⟨-, hfull | hnone⟩ | ⟨g, hg⟩
    · exact absurd (hfree.symm.trans hfull) (by decide)
    · cases hselect.symm.trans hnone
    · obtain rfl : s.robHead = g := Option.some.inj (hselect.symm.trans hg.selected)
      have hframe := hg.frame
      rw [hslot] at hframe
      have halone : Alone { o with sc := some o.slot.inst, slot := { o.slot with exec := true } } t := by
        refine h.of_sameRecords hg.sameRecords ?_ ?_ ?_ ?_ ?_ rfl fun _ => ?_
        · rw [hframe]; exact h.latchFE
        · rw [hframe]; exact h.latchID
        · have hput := laneRecords_set_valid_perm (l := { s.scAt 0 with valid := true, inst := o.slot.inst })
            (hwidth ▸ s.cfg.one_le_pipeWidth) hfree rfl
          rw [hSC] at hput
          rw [hframe]
          exact List.perm_singleton.mp hput
        · rw [hframe]; exact h.latchEX
        · rw [hframe]; exact h.queue
        · rw [hg.robAt, if_pos rfl, hslot]
      refine ⟨t, ?_, by rw [hframe]; exact ⟨rfl, rfl, rfl⟩, halone⟩
      exact forLanes_first s.cfg.one_le_pipeWidth hlane fun k _ =>
        scheduleLane_idle (halone.select_eq_none (by simp))

/-! ## Execute -/

/-- What Execute leaves, once it is known what it moves. -/
theorem Alone.of_executed {moved : List Inst} {o' : Occupancy} (hrun : execute s = .ok () t) (hx : Executed s t moved)
    (hsc : o'.sc = none) (hfe : o'.fe = o.fe) (hid : o'.id = o.id) (hslot : o'.slot = o.slot)
    (hq : exeqRecords t = o'.queue.toList) (hex : laneRecords t.latchEX = o'.ex.toList) :
    SameRun s t ∧ Alone o' t := by
  have hframe := hx.frame
  unfold Stage.Frame at hframe
  have hsame := (carried_execute hrun).sameRecords
  refine ⟨by rw [hframe]; exact ⟨rfl, rfl, rfl⟩, h.of_sameRecords hsame ?_ ?_ ?_ hex hq (by rw [hslot]) fun hv => ?_⟩
  · rw [hfe, hframe]; exact h.latchFE
  · rw [hid, hframe]; exact h.latchID
  · rw [hsc, hx.latchSC]
    exact laneRecords_of_all_invalid fun l hl => by
      obtain ⟨_, -, rfl⟩ := List.mem_map.mp hl
      rfl
  · rw [hslot] at hv ⊢
    rw [hframe]
    exact h.slot hv

/-- A single-cycle record passes the EXEQ by (R220). -/
theorem Alone.execute_bypass (hwidths : WidthsOk s) (hsc : o.sc = some x) (hex : o.ex = none) (hq : o.queue = none)
    (hlat : lat s.cfg x.op = 1) : ∃ t, execute s = .ok () t ∧ SameRun s t ∧
      Alone { o with sc := none, ex := some x } t := by
  have hSC : laneRecords s.latchSC = [x] := by rw [h.latchSC, hsc]; rfl
  have hEX : laneRecords s.latchEX = [] := by rw [h.latchEX, hex]; rfl
  have hsingle : x.single s.cfg = true := single_iff.mpr hlat
  have hmultis : multis s.cfg s.latchSC = [] := by simp [multis, hSC, hsingle]
  have hsingles : singles s.cfg s.latchSC = [x] := by simp [singles, hSC, hsingle]
  rcases execute_cases hwidths (all_free_of_laneRecords hEX) with ⟨-, t, moved, hrun, hx⟩ | ⟨hover, -⟩
  · have hqueue := hx.queue
    rw [hmultis, h.queue, hq] at hqueue
    obtain ⟨hkept, rfl⟩ := List.append_eq_nil_iff.mp (List.perm_nil.mp hqueue)
    have hput := hx.latchEX
    rw [hsingles, List.append_nil] at hput
    exact ⟨t, hrun, h.of_executed hrun hx rfl rfl rfl rfl (by rw [hkept, hq]; rfl) (List.perm_singleton.mp hput)⟩
  · rw [exeqDemand_eq, hmultis] at hover
    cases hover

omit h in
/-- The one record of the queue stays with a cycle less, or leaves when that was its last (R154, R158). -/
theorem Executed.of_one {moved : List Inst} (hx : Executed s t moved) (hwidths : WidthsOk s)
    (hsingles : singles s.cfg s.latchSC = [])
    (hall : exeqRecords s ++ (multis s.cfg s.latchSC).map (Inst.entering s.cfg) = [c]) :
    (1 < c.wait → exeqRecords t = [c.aged] ∧ laneRecords t.latchEX = []) ∧
      (c.wait ≤ 1 → exeqRecords t = [] ∧ laneRecords t.latchEX = [c.aged]) := by
  have hqueue := hx.queue
  have hput := hx.latchEX
  rw [hall, List.map_singleton] at hqueue
  rw [hsingles, List.nil_append] at hput
  have hone := List.perm_singleton.mp hqueue
  rcases List.append_eq_singleton_iff.mp hone with ⟨hkept, hmoved⟩ | ⟨hkept, hmoved⟩
  · rw [hmoved] at hput
    refine ⟨fun hwait => ?_, fun _ => ⟨hkept, List.perm_singleton.mp hput⟩⟩
    have hzero : c.wait - 1 = 0 := hx.finished c.aged (by rw [hmoved]; exact List.mem_singleton_self _)
    omega
  · rw [hmoved] at hput
    refine ⟨fun _ => ⟨hkept, List.perm_nil.mp hput⟩, fun hwait => ?_⟩
    rcases hx.stop with hnone | hfull
    · exact absurd (Nat.sub_eq_zero_of_le hwait) (hnone c.aged (by rw [hkept]; exact List.mem_singleton_self _))
    · have hcount : laneCount t.latchEX = t.latchEX.length := List.countP_eq_length.mpr hfull
      rw [laneCount_eq_length, hput.length_eq, hx.lengthEX, hwidths.latchEX] at hcount
      exact absurd hcount (wbWidth_pos s.cfg).ne

/-- A longer record enters the EXEQ and is aged at once (R151, R220). -/
theorem Alone.execute_enqueue (hwidths : WidthsOk s) (hsc : o.sc = some x) (hex : o.ex = none) (hq : o.queue = none)
    (hlat : 1 < lat s.cfg x.op) (hsize : 0 < s.exeq.length) : ∃ t, execute s = .ok () t ∧ SameRun s t ∧
      Alone { o with sc := none, queue := some { x with wait := lat s.cfg x.op - 1 } } t := by
  have hSC : laneRecords s.latchSC = [x] := by rw [h.latchSC, hsc]; rfl
  have hEX : laneRecords s.latchEX = [] := by rw [h.latchEX, hex]; rfl
  have hnone : exeqRecords s = [] := by rw [h.queue, hq]; rfl
  have hmulti : (!x.single s.cfg) = true := not_single_iff.mpr hlat
  have hmultis : multis s.cfg s.latchSC = [x] := by
    rw [multis, hSC]
    exact List.filter_cons_of_pos (p := fun c => !Inst.single s.cfg c) hmulti
  have hsingles : singles s.cfg s.latchSC = [] := by
    rw [singles, hSC, List.filter_cons_of_neg (by simpa using hmulti)]; rfl
  rcases execute_cases hwidths (all_free_of_laneRecords hEX) with ⟨-, t, moved, hrun, hx⟩ | ⟨hover, -⟩
  · obtain ⟨hstay, -⟩ := hx.of_one hwidths (c := x.entering s.cfg) hsingles (by rw [hnone, hmultis]; rfl)
    obtain ⟨hkept, hput⟩ := hstay hlat
    exact ⟨t, hrun, h.of_executed hrun hx rfl rfl rfl rfl hkept (by rw [hput, hex]; rfl)⟩
  · have hfree := length_exeqRecords s
    rw [exeqDemand_eq, hmultis] at hover
    rw [hnone] at hfree
    simp only [List.length_cons, List.length_nil] at hover hfree
    omega

/-- The record in the EXEQ has one cycle less (R154), and leaves when that was its last (R158). -/
theorem Alone.execute_queue (hwidths : WidthsOk s) (hsc : o.sc = none) (hex : o.ex = none) (hq : o.queue = some c) :
    ∃ t, execute s = .ok () t ∧ SameRun s t ∧
      (1 < c.wait → Alone { o with queue := some { c with wait := c.wait - 1 } } t) ∧
      (c.wait ≤ 1 → Alone { o with queue := none, ex := some { c with wait := c.wait - 1 } } t) := by
  have hSC : laneRecords s.latchSC = [] := by rw [h.latchSC, hsc]; rfl
  have hEX : laneRecords s.latchEX = [] := by rw [h.latchEX, hex]; rfl
  have hmultis : multis s.cfg s.latchSC = [] := by rw [multis, hSC]; rfl
  have hsingles : singles s.cfg s.latchSC = [] := by rw [singles, hSC]; rfl
  rcases execute_cases hwidths (all_free_of_laneRecords hEX) with ⟨-, t, moved, hrun, hx⟩ | ⟨hover, -⟩
  · obtain ⟨hstay, hleave⟩ := hx.of_one hwidths (c := c) hsingles (by rw [h.queue, hq, hmultis]; rfl)
    have hframe := hx.frame
    unfold Stage.Frame at hframe
    refine ⟨t, hrun, by rw [hframe]; exact ⟨rfl, rfl, rfl⟩, fun hwait => ?_, fun hwait => ?_⟩
    · obtain ⟨hkept, hput⟩ := hstay hwait
      exact (h.of_executed (o' := { o with queue := some { c with wait := c.wait - 1 } }) hrun hx hsc rfl rfl rfl hkept
        (by rw [hput, hex]; rfl)).2
    · obtain ⟨hkept, hput⟩ := hleave hwait
      exact (h.of_executed (o' := { o with queue := none, ex := some { c with wait := c.wait - 1 } }) hrun hx hsc rfl rfl
        rfl hkept hput).2
  · rw [exeqDemand_eq, hmultis] at hover
    cases hover

/-! ## Writeback -/

omit h in
theorem writtenSlot_of_named {lanes : List Lane} {y : RobSlot} (hv : y.valid = true)
    (hnamed : holdsTag lanes (some u) = true) (h1 : y.inst.src1Ready = true) (h2 : y.inst.src2Ready = true) :
    writtenSlot lanes u y = { y with ready := true } := by
  have hinst : { y.inst with src1Ready := true, src2Ready := true } = y.inst :=
    (congrArg₂ (fun a b => { y.inst with src1Ready := a, src2Ready := b }) h1 h2).symm
  rw [writtenSlot, if_pos hv, hnamed, h1, h2, Bool.or_true, Bool.true_or, Bool.true_or, hinst]

theorem Alone.writeback (hwidths : WidthsOk s) (hex : o.ex = some c) (htag : c.drTag = some s.robHead)
    (hvalid : o.slot.valid = true) (h1 : o.slot.inst.src1Ready = true) (h2 : o.slot.inst.src2Ready = true) :
    ∃ t, writeback s = .ok () t ∧ SameRun s t ∧ Alone { o with ex := none, slot := { o.slot with ready := true } } t := by
  have hEX : laneRecords s.latchEX = [c] := by rw [h.latchEX, hex]; rfl
  have hslot := h.slot hvalid
  obtain ⟨t, hrun, hw⟩ := writeback_ok hwidths.latchEX fun l hl hv => by
    have hmem := mem_laneRecords.mpr ⟨l, hl, hv, rfl⟩
    rw [hEX, List.mem_singleton] at hmem
    exact ⟨s.robHead, by rw [hmem, htag], by rw [hslot, hvalid]⟩
  obtain ⟨hrob, hempty⟩ := hw.done hwidths.latchEX
  have hframe := hw.frame
  unfold Stage.Frame at hframe
  have hsame : SameRecords s t := writeback_keeps (P := SameRecords s)
    (fun _ _ _ _ hwb hu => hu.trans hwb.sameRecords) (.of_rob_eq rfl rfl rfl rfl rfl rfl) hrun
  refine ⟨t, hrun, by rw [hframe]; exact ⟨rfl, rfl, rfl⟩, h.of_sameRecords hsame ?_ ?_ ?_ ?_ ?_ rfl fun _ => ?_⟩
  · rw [hframe]; exact h.latchFE
  · rw [hframe]; exact h.latchID
  · rw [hframe]; exact h.latchSC
  · rw [hempty]
    exact laneRecords_of_all_invalid fun l hl => by
      obtain ⟨_, -, rfl⟩ := List.mem_map.mp hl
      rfl
  · rw [hframe]; exact h.queue
  · have hnamed : holdsTag s.latchEX (some s.robHead) = true := by
      rw [holdsTag_eq_any, hEX, List.any_cons, htag, beq_self_eq_true, Bool.true_or]
    rw [hrob, hslot, writtenSlot_of_named hvalid hnamed h1 h2]

/-! ## Commit -/

theorem Alone.commit (hvalid : o.slot.valid = true) (hready : o.slot.ready = true) :
    ∃ t, commit s = .ok () t ∧ RetiredBy s 1 t ∧ Alone { o with slot := .empty } t := by
  obtain ⟨t, p, hrun, hretired, -, hstop⟩ := h.rob.commit
  have hpos := (hretired.pos_iff h.rob hstop).mpr (by rw [h.robHeadIsReady_eq, hvalid, hready]; rfl)
  have hcount := hretired.count
  rw [h.count, if_pos hvalid] at hcount
  obtain rfl : p = 1 := by omega
  have hframe := hretired.frame
  unfold Stage.Frame at hframe
  refine ⟨t, hrun, hretired, hretired.robOk, ?_, ?_, ?_, ?_, ?_, ?_, fun hv => nomatch hv⟩
  · rw [hframe]; exact h.latchFE
  · rw [hframe]; exact h.latchID
  · rw [hframe]; exact h.latchSC
  · rw [hframe]; exact h.latchEX
  · rw [hframe]; exact h.queue
  · show robCount t = 0
    omega

end

end

end Sys2Proof.Machine
end

section
/-! PROOFS. The last record of the stream, met by a machine with nothing in it (48_instruction_classes.md R259): one stage a
tick, from whatever slot and number the machine stands at. -/

namespace Sys2Proof.Machine

/-- The run state of `t`, `n` ticks after `s`, with one instruction more fetched and none retired. -/
def runSince (s : State) (n : Nat) (t : State) : Run :=
  ⟨s.lastSeq + 1, t.eosSeen, t.haltSeq, false, none, s.cycleCount + n, s.retiredCount⟩

/-- `n` ticks after `s` the machine `t` holds `o`, and waits for nothing but the retirement. -/
structure Underway (s : State) (n : Nat) (o : Occupancy) (t : State) : Prop where
  alone : Alone o t
  shaped : Shaped t
  noStallFE : ∀ l ∈ t.latchFE, l.stall = false
  noStallID : ∀ l ∈ t.latchID, l.stall = false
  cfg : t.cfg = s.cfg
  robHead : t.robHead = s.robHead
  run : t.run = runSince s n t
  ended : t.eosSeen = true → t.haltSeq = s.lastSeq + 1
  atEnd : nextItem t = .endOfStream
  closed : o.fe = none → t.eosSeen = true

/-- `n` ticks after `s` the one instruction has retired from the machine `t`, which has halted. -/
structure Finished (s : State) (n : Nat) (t : State) : Prop where
  alone : Alone {} t
  robHead : t.robHead = (s.robHead + 1) % s.cfg.robSize
  run : t.run = ⟨s.lastSeq + 1, true, s.lastSeq + 1, true, none, s.cycleCount + n, s.retiredCount + 1⟩

/-! ## The idle machine, and the record it meets -/

section
variable {s t u v : State} {o o' : Occupancy} {i : Instr} {n m k w : Nat} {x y c : Inst} {p : Phase} {first : TraceItem}

theorem robOk_of_idle (h : Idle s) : RobOk s := by
  have hv := vacant_of_idle h
  obtain ⟨hshape, -, -, -, hhead, -⟩ := h
  have hs := wellShaped_iff.mp hshape
  have hslot {u : Nat} (hu : (s.robAt u).valid = true) : False := Bool.false_ne_true ((hv.slots u).symm.trans hu)
  refine ⟨hs.robLength, hs.ratLength, hs.headLt, ⟨?_, fun k _ => ?_, fun k _ hk => ?_⟩, fun u _ hu => (hslot hu).elim,
    fun r _ g hg => ?_, fun u _ hu => (hslot hu).elim⟩
  · rw [hv.rob, Nat.add_zero, Nat.mod_eq_of_lt hs.headLt, hhead]
  · rw [hv.rob]; exact hv.slots _
  · rw [hv.rob] at hk; cases hk
  · rw [hv.rat r] at hg; cases hg

theorem alone_of_idle (h : Idle s) : Alone {} s :=
  have hv := vacant_of_idle h
  ⟨robOk_of_idle h, hv.latchFE, hv.latchID, hv.latchSC, hv.latchEX, hv.queue, hv.rob, fun hslot => nomatch hslot⟩

theorem Alone.counted (h : Alone o s) : Alone o (counted s) :=
  h.of_sameRecords (.of_rob_eq rfl rfl rfl rfl rfl rfl) h.latchFE h.latchID h.latchSC h.latchEX h.queue rfl h.slot

/-- A stream with one record left gives it and ends. -/
theorem FilledBy.eq_one (h : FilledBy (.record i) s n m t) (hlast : s.trace.length ≤ s.tracePos + 1) (hm : 0 < m) :
    m = 1 := by
  by_contra hne
  obtain ⟨j, hj⟩ := h.items 1 (by omega)
  rw [Machine.itemAt, if_neg Nat.one_ne_zero] at hj
  cases (nextItem_of_end (s := { s with tracePos := s.tracePos + 1 }) hlast).symm.trans hj

/-- What the fetch of the one record leaves, before the end of the stream is seen. -/
theorem FilledBy.alone (h : FilledBy (.record i) s n 1 t) (hs : Alone {} s) :
    Alone { fe := some (fetchedInst (s.lastSeq + 1) i) } t := by
  have hframe := h.frame
  have hrecords := h.records
  rw [hs.latchFE, List.range_one, List.map_singleton, newInst_of_record (i := i) rfl] at hrecords
  refine hs.of_sameRecords ?_ (List.perm_singleton.mp hrecords) ?_ ?_ ?_ ?_ rfl fun hv => nomatch hv
  · rw [hframe]; exact .of_rob_eq rfl rfl rfl rfl rfl rfl
  · rw [hframe]; exact hs.latchID
  · rw [hframe]; exact hs.latchSC
  · rw [hframe]; exact hs.latchEX
  · rw [hframe]; exact hs.queue

theorem Alone.endAt (h : Alone o s) (item : TraceItem) : Alone o (endAt item s) :=
  h.of_sameRecords (.of_rob_eq rfl rfl rfl rfl rfl rfl) h.latchFE h.latchID h.latchSC h.latchEX h.queue rfl h.slot

/-- With nothing in the machine the stages before Fetch only count the cycle. -/
theorem Alone.beforeFetch_idle (h : Alone {} s) : beforeFetch s = .ok () (Machine.counted s) := by
  have hs := h.counted
  have hstages := beforeFetch_ok (hs.commit_idle rfl) (hs.writeback_idle rfl) (hs.execute_idle rfl rfl)
    (hs.schedule_idle rfl) (hs.issue_idle rfl)
  rwa [hs.decode_idle rfl] at hstages

theorem tick_of_beforeFetch {item : TraceItem} (hrun : running s = true) (h : beforeFetch s = .ok () u) :
    tick item s = fetch item u := by
  rw [tick, if_pos hrun, h]
  rfl

/-- The tick that meets the record: it is in the fetch latch, under the next number. -/
theorem exec_of_idle (h : Idle s) (hi : i.wellFormed s.cfg.numArchRegs = true) (hpos : s.tracePos + 1 = s.trace.length) :
    ∃ t, exec i s = .next t ∧ Underway s 1 { fe := some (fetchedInst (s.lastSeq + 1) i) } t := by
  have halone := alone_of_idle h
  obtain ⟨hshape, hrun, heos, hret, -, -, -, -, hlatches⟩ := h
  have hshaped := wellShaped_iff.mp hshape
  have hoffered : offered s.cfg i = .record i := if_pos hi
  have hitem : ItemOk s.cfg (.record i) := hoffered ▸ itemOk_offered s.cfg i
  have hnoFE : ∀ l ∈ s.latchFE, l.stall = false := fun l hl => (hlatches l (by simp [hl])).2
  have hnoID : ∀ l ∈ s.latchID, l.stall = false := fun l hl => (hlatches l (by simp [hl])).2
  have htick : tick (.record i) s = fetch (.record i) (counted s) := tick_of_beforeFetch hrun halone.beforeFetch_idle
  obtain ⟨hcfg, htrace, hstallFE, hstallID, -⟩ := sameFixed_tick (s := s) hitem
  have hshapedT := shaped_tick hitem hshaped
  refine ⟨_, exec_eq_next hshape i, ?_⟩
  rw [hoffered]
  simp only [running, Bool.and_eq_true, Bool.not_eq_true', Option.isNone_iff_eq_none] at hrun
  obtain ⟨hhalted, hfault⟩ := hrun
  have hfree : ((counted s).feAt 0).valid = false := free_of_laneRecords halone.latchFE 0
  have hlast : (counted s).trace.length ≤ (counted s).tracePos + 1 := hpos.ge
  have hkept : Alone { fe := some (fetchedInst (s.lastSeq + 1) i) } (tick (.record i) s) ∧
      (tick (.record i) s).robHead = s.robHead ∧ (tick (.record i) s).run = runSince s 1 (tick (.record i) s) ∧
      ((tick (.record i) s).eosSeen = true → (tick (.record i) s).haltSeq = s.lastSeq + 1) ∧
      nextItem (tick (.record i) s) = .endOfStream := by
    rw [htick]
    rcases fetch_cases (s := counted s) (.record i) hshaped.latchFE.length hnoFE heos with ⟨m, hfilled⟩ |
      ⟨j, -, m, v, hended⟩
    · obtain rfl := hfilled.eq_one hlast (hfilled.pos s.cfg.one_le_pipeWidth hfree)
      have hone := hfilled.alone halone.counted
      have hframe := hfilled.frame
      refine ⟨hone, by rw [hframe]; rfl, ?_, fun he => ?_, ?_⟩
      · rw [State.run, runSince, hframe]
        simp only [counted, hhalted, hfault]
      · rw [hframe] at he
        exact absurd (heos.symm.trans he) (by decide)
      · rw [hframe]
        exact nextItem_of_end hlast
    · obtain rfl : m = 1 := hended.filled.eq_one hlast (Nat.pos_of_ne_zero fun hm => hended.item i (by rw [hm]; rfl))
      have hend : itemAt (.record i) (counted s) 1 = .endOfStream := nextItem_of_end (s := { counted s with
        tracePos := (counted s).tracePos + 1 }) hlast
      have hone := hended.filled.alone halone.counted
      have hframe := hended.filled.frame
      rw [hended.eq, hend]
      refine ⟨hone.endAt _, by rw [endAt, hframe]; rfl, ?_, fun _ => ?_, ?_⟩
      · rw [State.run, runSince, endAt, hframe]
        simp [counted, hhalted, hfault]
      · rw [endAt, hframe]
        rfl
      · rw [endAt, hframe]
        exact nextItem_of_end hlast
  obtain ⟨hone, hhead, hrun', hended, hend⟩ := hkept
  exact ⟨hone, hshapedT, stall_of_stalls_eq hstallFE hnoFE, stall_of_stalls_eq hstallID hnoID, hcfg, hhead, hrun', hended,
    hend, fun hnone => nomatch hnone⟩

/-! ## One tick more -/

section
variable (h : Underway s n o t)
include h

theorem Underway.halted : t.halted = false := congrArg Run.halted h.run
theorem Underway.lastSeq : t.lastSeq = s.lastSeq + 1 := congrArg Run.lastSeq h.run
theorem Underway.retiredCount : t.retiredCount = s.retiredCount := congrArg Run.retiredCount h.run
theorem Underway.fault : t.fault = none := congrArg Run.fault h.run
theorem Underway.cycleCount : t.cycleCount = s.cycleCount + n := congrArg Run.cycleCount h.run

theorem Underway.running : running t = true := by rw [Machine.running, h.halted, h.fault]; rfl

theorem Underway.widths : WidthsOk (counted t) := ⟨h.shaped.latchSC.length, h.shaped.latchEX.length⟩

/-- A tick whose stages before Fetch leave `u`, with the fetch latch empty: Fetch sees the end of the stream, now or before. -/
theorem Underway.next (hstages : beforeFetch t = .ok () u) (halone : Alone o' u) (hsame : SameRun (counted t) u)
    (hfe : o'.fe = none) : ∃ v, step t = .next v ∧ Underway s (n + 1) o' v := by
  have htick : tick (nextItem t) t = fetch (nextItem t) u := tick_of_beforeFetch h.running hstages
  obtain ⟨hcfg, -, hstallFE, hstallID, -⟩ := sameFixed_tick (itemOk_nextItem t)
  have hshaped := shaped_tick (itemOk_nextItem t) h.shaped
  have hnoFE := stall_of_stalls_eq hstallFE h.noStallFE
  have hrun : u.lastSeq = s.lastSeq + 1 ∧ u.halted = false ∧ u.fault = none ∧ u.cycleCount = s.cycleCount + (n + 1) ∧
      u.retiredCount = s.retiredCount ∧ u.eosSeen = t.eosSeen ∧ u.haltSeq = t.haltSeq := by
    have hu := hsame.run
    refine ⟨(congrArg Run.lastSeq hu).trans h.lastSeq, (congrArg Run.halted hu).trans h.halted,
      (congrArg Run.fault hu).trans h.fault, (congrArg Run.cycleCount hu).trans ?_,
      (congrArg Run.retiredCount hu).trans h.retiredCount, congrArg Run.eosSeen hu, congrArg Run.haltSeq hu⟩
    show t.cycleCount + 1 = _
    rw [h.cycleCount, Nat.add_assoc]
  obtain ⟨hlast, hhalted, hfault, hcycle, hretired, heos, hhalt⟩ := hrun
  have hitem : nextItem u = .endOfStream := hsame.item.trans h.atEnd
  refine ⟨_, step_eq_next (wellShaped_iff.mpr h.shaped), ?_⟩
  have hkept : Alone o' (tick (nextItem t) t) ∧ (tick (nextItem t) t).robHead = s.robHead ∧
      (tick (nextItem t) t).run = runSince s (n + 1) (tick (nextItem t) t) ∧
      (tick (nextItem t) t).haltSeq = s.lastSeq + 1 ∧ nextItem (tick (nextItem t) t) = .endOfStream ∧
      (tick (nextItem t) t).eosSeen = true := by
    rw [htick] at hnoFE ⊢
    rw [h.atEnd] at hnoFE ⊢
    rcases fetchLanes_at_end (List.range u.cfg.pipeWidth) (some .endOfStream) u rfl hitem with ⟨hkeep, hstop⟩ | hend
    · have hu : fetch .endOfStream u = u := hkeep
      rw [hu] at hnoFE ⊢
      have heosU : u.eosSeen = true := by
        refine hstop.resolve_right fun hall => ?_
        rcases hall 0 (List.mem_range.mpr u.cfg.one_le_pipeWidth) with hv | hst
        · have hFE := halone.latchFE
          rw [hfe] at hFE
          exact Bool.false_ne_true ((free_of_laneRecords hFE 0).symm.trans hv)
        · exact Bool.false_ne_true ((stall_getD hnoFE 0).symm.trans hst)
      refine ⟨halone, hsame.robHead.trans h.robHead, ?_, hhalt.trans (h.ended (heos ▸ heosU)), hitem, heosU⟩
      rw [State.run, runSince, hlast, hhalted, hfault, hcycle, hretired]
    · have hu : fetch .endOfStream u = endAt .endOfStream u := hend
      rw [hu]
      refine ⟨halone.endAt _, hsame.robHead.trans h.robHead, ?_, hlast, hitem, rfl⟩
      rw [State.run, runSince, endAt, hlast, hhalted, hfault, hcycle, hretired]
      simp
  obtain ⟨hone, hhead, hrun', hended, hend, heos'⟩ := hkept
  exact ⟨hone, hshaped, hnoFE, stall_of_stalls_eq hstallID h.noStallID, hcfg.trans h.cfg, hhead, hrun', fun _ => hended,
    hend, fun _ => heos'⟩

end

/-! ## The seven stages -/

/-- The slot of the one instruction, by its flags. -/
def aloneAt (y : Inst) (exec ready : Bool) : RobSlot := { valid := true, exec := exec, ready := ready, inst := y }

/-- From holding `o` to holding `o'` in a tick. -/
def Goes (s : State) (o o' : Occupancy) : Prop :=
  ∀ n t, Underway s n o t → ∃ v, step t = .next v ∧ Underway s (n + 1) o' v

theorem goes_decode : Goes s { fe := some x } { id := some x } := by
  intro n t h
  have hs := h.alone.counted
  have hstages := beforeFetch_ok (hs.commit_idle rfl) (hs.writeback_idle rfl) (hs.execute_idle rfl rfl)
    (hs.schedule_idle rfl) (hs.issue_idle rfl)
  obtain ⟨halone, hsame⟩ := hs.decode h.shaped.latchID.length h.noStallID rfl rfl
  exact h.next hstages halone hsame rfl

theorem goes_issue (hseq : x.seq = s.retiredCount + 1) (hdest : ∀ d ∈ x.dest, d < s.cfg.numArchRegs) :
    Goes s { id := some x } { slot := aloneAt (x.issuedAt s.robHead) false false } := by
  intro n t h
  have hs := h.alone.counted
  obtain ⟨u, hu, hsame, halone⟩ := hs.issue rfl rfl (hseq.trans (congrArg (· + 1) h.retiredCount.symm))
    (fun d hd => (hdest d hd).trans_eq (congrArg Config.numArchRegs h.cfg.symm))
  have hstages := beforeFetch_ok (hs.commit_idle rfl) (hs.writeback_idle rfl) (hs.execute_idle rfl rfl)
    (hs.schedule_idle rfl) hu
  rw [halone.decode_idle rfl] at hstages
  have hhead : (counted t).robHead = s.robHead := h.robHead
  rw [hhead] at halone
  exact h.next hstages halone hsame rfl

section
variable (h1 : y.src1Ready = true) (h2 : y.src2Ready = true)
include h1 h2

theorem goes_schedule : Goes s { slot := aloneAt y false false } { sc := some y, slot := aloneAt y true false } := by
  intro n t h
  have hs := h.alone.counted
  obtain ⟨u, hu, hsame, halone⟩ := hs.schedule h.widths.latchSC rfl rfl rfl h1 h2
  have hstages := beforeFetch_ok (hs.commit_idle rfl) (hs.writeback_idle rfl) (hs.execute_idle rfl rfl) hu
    (halone.issue_idle rfl)
  rw [halone.decode_idle rfl] at hstages
  exact h.next hstages halone hsame rfl

theorem goes_writeback (htag : y.drTag = some s.robHead) :
    Goes s { ex := some y, slot := aloneAt y true false } { slot := aloneAt y true true } := by
  intro n t h
  have hs := h.alone.counted
  obtain ⟨u, hu, hsame, halone⟩ := hs.writeback h.widths rfl (htag.trans (congrArg some h.robHead.symm)) rfl h1 h2
  have hstages := beforeFetch_ok (hs.commit_idle rfl) hu (halone.execute_idle rfl rfl) (halone.schedule_idle rfl)
    (halone.issue_idle rfl)
  rw [halone.decode_idle rfl] at hstages
  exact h.next hstages halone hsame rfl

end

/-- A tick in which Execute alone has something to do. -/
theorem Underway.executed (h : Underway s n o t) (hready : (o.slot.valid && o.slot.ready) = false) (hex : o.ex = none)
    (hrun : execute (counted t) = .ok () u) (hsame : SameRun (counted t) u) (halone : Alone o' u)
    (hexec : (o'.slot.valid && !o'.slot.exec) = false) (hid : o'.id = none) (hfe : o'.fe = none) :
    ∃ v, step t = .next v ∧ Underway s (n + 1) o' v := by
  have hs := h.alone.counted
  have hstages := beforeFetch_ok (hs.commit_idle hready) (hs.writeback_idle hex) hrun (halone.schedule_idle hexec)
    (halone.issue_idle hid)
  rw [halone.decode_idle hfe] at hstages
  exact h.next hstages halone hsame hfe

theorem goes_bypass (hlat : lat s.cfg y.op = 1) :
    Goes s { sc := some y, slot := aloneAt y true false } { ex := some y, slot := aloneAt y true false } := by
  intro n t h
  obtain ⟨u, hu, hsame, halone⟩ := h.alone.counted.execute_bypass h.widths rfl rfl rfl
    (show lat t.cfg y.op = 1 by rw [h.cfg, hlat])
  exact h.executed rfl rfl hu hsame halone rfl rfl rfl

theorem goes_enqueue (hlat : 1 < lat s.cfg y.op) (hsize : 1 ≤ s.cfg.exeqSize) :
    Goes s { sc := some y, slot := aloneAt y true false }
      { queue := some { y with wait := lat s.cfg y.op - 1 }, slot := aloneAt y true false } := by
  intro n t h
  have hlength : t.exeq.length = s.cfg.exeqSize := by rw [h.shaped.exeqLength, h.cfg]
  obtain ⟨u, hu, hsame, halone⟩ := h.alone.counted.execute_enqueue h.widths rfl rfl rfl
    (show 1 < lat t.cfg y.op by rw [h.cfg]; exact hlat) (show 0 < t.exeq.length by omega)
  have hcfg : (counted t).cfg = s.cfg := h.cfg
  rw [hcfg] at halone
  exact h.executed rfl rfl hu hsame halone rfl rfl rfl

theorem goes_age (hw : 1 < w) : Goes s { queue := some { y with wait := w }, slot := aloneAt y true false }
    { queue := some { y with wait := w - 1 }, slot := aloneAt y true false } := by
  intro n t h
  obtain ⟨u, hu, hsame, hstay, -⟩ := h.alone.counted.execute_queue h.widths rfl rfl rfl
  exact h.executed rfl rfl hu hsame (hstay hw) rfl rfl rfl

theorem goes_leave (hwait : y.wait = 0) : Goes s { queue := some { y with wait := 1 }, slot := aloneAt y true false }
    { ex := some y, slot := aloneAt y true false } := by
  intro n t h
  obtain ⟨u, hu, hsame, -, hleave⟩ := h.alone.counted.execute_queue h.widths rfl rfl rfl
  have halone := hleave (Nat.le_refl 1)
  have hsameInst : { y with wait := 0 } = y := by rw [← hwait]
  exact h.executed rfl rfl hu hsame (hsameInst ▸ halone) rfl rfl rfl

/-- The retirement ends the run, as the instruction is the last one fetched. -/
theorem Underway.commit (h : Underway s n { slot := aloneAt y true true } t) (hbase : s.lastSeq = s.retiredCount) :
    ∃ v, step t = .next v ∧ Finished s (n + 1) v := by
  have hs := h.alone.counted
  obtain ⟨u, hu, hretired, halone⟩ := hs.commit rfl rfl
  have hstages := beforeFetch_ok hu (halone.writeback_idle rfl) (halone.execute_idle rfl rfl) (halone.schedule_idle rfl)
    (halone.issue_idle rfl)
  rw [halone.decode_idle rfl] at hstages
  have heos := h.closed rfl
  have hframe := hretired.frame
  unfold Stage.Frame at hframe
  have heosU : u.eosSeen = true := by rw [hframe]; exact heos
  have htick : tick (nextItem t) t = u := (tick_of_beforeFetch h.running hstages).trans (fetchLanes_ended heosU _ _)
  refine ⟨u, htick ▸ step_eq_next (wellShaped_iff.mpr h.shaped), halone, ?_, ?_⟩
  · rw [hretired.robHead]
    show (t.robHead + 1) % t.cfg.robSize = _
    rw [h.robHead, h.cfg]
  · have hhalt := h.ended heos
    have hhalted : u.halted = true := hretired.halted.mpr (.inr ⟨heos, Nat.one_pos, by
      show t.haltSeq ≤ t.retiredCount + 1
      rw [hhalt, h.retiredCount, hbase]⟩)
    have hret : u.retiredCount = s.retiredCount + 1 := by
      rw [hretired.retiredCount, ← h.retiredCount]
      rfl
    rw [State.run, hhalted, hret, hframe]
    simp only [counted, h.lastSeq, heos, hhalt, h.fault, h.cycleCount, Nat.add_assoc]

/-! ## The state of the instruction -/

theorem Alone.robHolds (h : Alone o s) (hshaped : Shaped s) (hv : o.slot.valid = true) {q : Nat}
    (hseq : o.slot.inst.seq = q) {pred : RobSlot → Bool} (hp : pred o.slot = true) : robHolds s q pred = true := by
  have hslot := h.slot hv
  exact (robHolds_iff (wellShaped_iff.mpr hshaped)).mpr ⟨s.robHead, hshaped.headLt, by rw [hslot, hv], by rw [hslot, hseq],
    by rw [hslot, hp]⟩

theorem latchHolds_of_records {latch : List Lane} {q : Nat} (h : laneRecords latch = [c]) (hseq : c.seq = q) :
    latchHolds latch q = true := hseq ▸ latchHolds_of_mem (h ▸ List.mem_singleton_self c)

theorem latchHolds_of_nil {latch : List Lane} (q : Nat) (h : laneRecords latch = []) : latchHolds latch q = false := by
  rw [latchHolds_eq_false_iff, latchSeqs_eq_map, h]
  exact List.not_mem_nil

theorem Alone.travellers_eq (h : Alone o s) : travellers s = o.sc.toList ++ o.queue.toList ++ o.ex.toList := by
  rw [travellers, h.latchSC, h.queue, h.latchEX]

theorem not_travels_of_nil (h : travellers s = []) (q : Nat) : travels s q = false := by
  rw [Bool.eq_false_iff, Ne, travels_iff, h]
  rintro ⟨c, hc, -⟩
  cases hc

section
variable {q : Nat}

theorem Underway.fetched (h : Underway s n { fe := some x } t) (hseq : x.seq = q) : inPhase t q .fetched = true :=
  latchHolds_of_records h.alone.latchFE hseq

theorem Underway.decoded (h : Underway s n { id := some x } t) (hseq : x.seq = q) : inPhase t q .decoded = true :=
  latchHolds_of_records h.alone.latchID hseq

section
variable (hseq : y.seq = q)
include hseq

theorem Underway.ready (h : Underway s n { slot := aloneAt y false false } t) (h1 : y.src1Ready = true)
    (h2 : y.src2Ready = true) : inPhase t q .ready = true :=
  h.alone.robHolds h.shaped rfl hseq (by simp [aloneAt, h1, h2])

theorem Underway.scheduled (h : Underway s n { sc := some y, slot := aloneAt y true false } t) :
    inPhase t q .scheduled = true := by
  rw [inPhase, h.alone.robHolds h.shaped rfl hseq rfl]
  exact latchHolds_of_records h.alone.latchSC hseq

theorem Underway.executing (h : Underway s n { queue := some { y with wait := w }, slot := aloneAt y true false } t)
    (hw : 0 < w) : inPhase t q .executing = true := by
  rw [inPhase, h.alone.robHolds h.shaped rfl hseq rfl]
  refine (exeqHolds_iff (p := fun x => decide (0 < x.wait))).mpr ⟨{ y with wait := w }, ?_, hseq, decide_eq_true hw⟩
  rw [h.alone.queue]
  exact List.mem_singleton_self _

theorem Underway.inEX (h : Underway s n { ex := some y, slot := aloneAt y true false } t) :
    inPhase t q .executed = true := by
  rw [inPhase, h.alone.robHolds h.shaped rfl hseq rfl]
  exact latchHolds_of_records h.alone.latchEX hseq

theorem Underway.completed (h : Underway s n { slot := aloneAt y true true } t) : inPhase t q .completed = true := by
  rw [inPhase, h.alone.robHolds h.shaped rfl hseq rfl, not_travels_of_nil h.alone.travellers_eq]
  rfl

end

theorem Finished.committed (h : Finished s n t) (hbase : s.lastSeq = s.retiredCount) :
    inPhase t (s.lastSeq + 1) .committed = true := by
  have hret : t.retiredCount = s.retiredCount + 1 := congrArg Run.retiredCount h.run
  have hnone : Machine.robHolds t (s.lastSeq + 1) (fun _ => true) = false := by
    rw [Machine.robHolds, List.any_eq_false]
    intro z hz
    have hfree := List.countP_eq_zero.mp h.alone.count z hz
    simp [hfree]
  rw [inPhase, latchHolds_of_nil _ h.alone.latchFE, latchHolds_of_nil _ h.alone.latchID, hnone,
    not_travels_of_nil h.alone.travellers_eq, hret, hbase]
  simp

end

/-! ## Ticks in a row -/

/-- `k` ticks after `t`, the state after the exec of the record, the machine holds `o`. -/
def HoldsSince (s t : State) (k : Nat) (o : Occupancy) : Prop := ∃ u, ticks k t = .next u ∧ Underway s (k + 1) o u

theorem HoldsSince.next (h : HoldsSince s t k o) (hgoes : Goes s o o') : HoldsSince s t (k + 1) o' :=
  let ⟨_, hu, hway⟩ := h
  let ⟨v, hv, hway'⟩ := hgoes _ _ hway
  ⟨v, ticks_succ hu hv, hway'⟩

section
variable (hx : x = fetchedInst (s.lastSeq + 1) i) (hy : y = x.issuedAt s.robHead) (hbase : s.lastSeq = s.retiredCount)
  (hi : i.wellFormed s.cfg.numArchRegs = true) (ht : Underway s 1 { fe := some x } t)
include hx hy hbase hi ht

theorem holdsSince_issued : HoldsSince s t 2 { slot := aloneAt y false false } := by
  have hdest : ∀ d ∈ x.dest, d < s.cfg.numArchRegs := fun d hd => by
    obtain ⟨⟨hrange, -⟩, -⟩ := instInRange_iff.mp (instInRange_fetched (q := s.lastSeq + 1) hi)
    rw [← hx, Option.mem_def.mp hd] at hrange
    exact of_decide_eq_true hrange
  have hfetched : HoldsSince s t 0 { fe := some x } := ⟨t, rfl, ht⟩
  have hdecoded : HoldsSince s t 1 { id := some x } := hfetched.next goes_decode
  rw [hy]
  exact hdecoded.next (goes_issue (by rw [hx, ← hbase]; rfl) hdest)

theorem holdsSince_scheduled : HoldsSince s t 3 { sc := some y, slot := aloneAt y true false } :=
  (holdsSince_issued hx hy hbase hi ht).next (goes_schedule (by rw [hy]; rfl) (by rw [hy]; rfl))

/-- By induction on the ticks in the EXEQ: each takes one off the countdown. -/
theorem holdsSince_queued (hsize : 1 ≤ s.cfg.exeqSize) (j : Nat) (hj : j + 1 < lat s.cfg y.op) :
    HoldsSince s t (4 + j) { queue := some { y with wait := lat s.cfg y.op - 1 - j }, slot := aloneAt y true false } := by
  induction j with
  | zero => exact (holdsSince_scheduled hx hy hbase hi ht).next (goes_enqueue hj hsize)
  | succ j ih => exact (ih (by omega)).next (goes_age (by omega))

theorem holdsSince_executed (hpath : lat s.cfg y.op = 1 ∨ 1 ≤ s.cfg.exeqSize) :
    HoldsSince s t (3 + lat s.cfg y.op) { ex := some y, slot := aloneAt y true false } := by
  by_cases hlat : lat s.cfg y.op = 1
  · rw [hlat]
    exact (holdsSince_scheduled hx hy hbase hi ht).next (goes_bypass hlat)
  · have hsize := hpath.resolve_left hlat
    have hpos := lat_pos s.cfg y.op
    obtain ⟨j, hj⟩ : ∃ j, lat s.cfg y.op = j + 2 := ⟨lat s.cfg y.op - 2, by omega⟩
    have hlast := holdsSince_queued hx hy hbase hi ht hsize j (by omega)
    rw [show lat s.cfg y.op - 1 - j = 1 by omega] at hlast
    have hleft := hlast.next (goes_leave (by rw [hy, hx]; rfl))
    rwa [show 4 + j + 1 = 3 + lat s.cfg y.op by omega] at hleft

theorem holdsSince_written (hpath : lat s.cfg y.op = 1 ∨ 1 ≤ s.cfg.exeqSize) :
    HoldsSince s t (4 + lat s.cfg y.op) { slot := aloneAt y true true } := by
  have hwritten := (holdsSince_executed hx hy hbase hi ht hpath).next
    (goes_writeback (by rw [hy]; rfl) (by rw [hy]; rfl) (by rw [hy]; rfl))
  rwa [show 3 + lat s.cfg y.op + 1 = 4 + lat s.cfg y.op by omega] at hwritten

theorem finished_since (hpath : lat s.cfg y.op = 1 ∨ 1 ≤ s.cfg.exeqSize) :
    ∃ u, ticks (5 + lat s.cfg y.op) t = .next u ∧ Finished s (6 + lat s.cfg y.op) u := by
  obtain ⟨u, hu, hway⟩ := holdsSince_written hx hy hbase hi ht hpath
  obtain ⟨v, hv, hdone⟩ := hway.commit hbase
  have hticks := ticks_succ hu hv
  rw [show 4 + lat s.cfg y.op + 1 = 5 + lat s.cfg y.op by omega] at hticks hdone
  rw [show 5 + lat s.cfg y.op + 1 = 6 + lat s.cfg y.op by omega] at hdone
  exact ⟨v, hticks, hdone⟩

/-- Every state of the timeline before the last, in its tick. -/
theorem underway_since (hpath : lat s.cfg y.op = 1 ∨ 1 ≤ s.cfg.exeqSize)
    (h : (aloneTimeline (lat s.cfg y.op))[k]? = some p) (hp : p ≠ .committed) :
    ∃ u, ticks k t = .next u ∧ inPhase u (s.lastSeq + 1) p = true ∧ u.halted = false := by
  have hseq : y.seq = s.lastSeq + 1 := by rw [hy, hx]; rfl
  rcases aloneTimeline_cases (lat_pos s.cfg y.op) h with ⟨rfl, rfl⟩ | ⟨rfl, rfl⟩ | ⟨rfl, rfl⟩ | ⟨rfl, rfl⟩ |
    ⟨j, rfl, hj, rfl⟩ | ⟨rfl, rfl⟩ | ⟨rfl, rfl⟩ | ⟨-, rfl⟩
  case inl => exact ⟨t, rfl, ht.fetched (by rw [hx]; rfl), ht.halted⟩
  case inr.inl =>
    obtain ⟨u, hu, hway⟩ := HoldsSince.next ⟨t, rfl, ht⟩ goes_decode
    exact ⟨u, hu, hway.decoded (by rw [hx]; rfl), hway.halted⟩
  case inr.inr.inl =>
    obtain ⟨u, hu, hway⟩ := holdsSince_issued hx hy hbase hi ht
    exact ⟨u, hu, hway.ready hseq (by rw [hy]; rfl) (by rw [hy]; rfl), hway.halted⟩
  case inr.inr.inr.inl =>
    obtain ⟨u, hu, hway⟩ := holdsSince_scheduled hx hy hbase hi ht
    exact ⟨u, hu, hway.scheduled hseq, hway.halted⟩
  case inr.inr.inr.inr.inl =>
    obtain ⟨u, hu, hway⟩ := holdsSince_queued hx hy hbase hi ht (hpath.resolve_left (by omega)) j hj
    exact ⟨u, hu, hway.executing hseq (by omega), hway.halted⟩
  case inr.inr.inr.inr.inr.inl =>
    obtain ⟨u, hu, hway⟩ := holdsSince_executed hx hy hbase hi ht hpath
    exact ⟨u, hu, hway.inEX hseq, hway.halted⟩
  case inr.inr.inr.inr.inr.inr.inl =>
    obtain ⟨u, hu, hway⟩ := holdsSince_written hx hy hbase hi ht hpath
    exact ⟨u, hu, hway.completed hseq, hway.halted⟩
  case inr.inr.inr.inr.inr.inr.inr => exact absurd rfl hp

end

/-- Settles O53: each tick's state in turn, and the retirement of the only instruction, which is the last. -/
theorem recordAloneRunsThroughTheSevenStages : Obligations.RecordAloneRunsThroughTheSevenStages := by
  intro i s hidle hi hpos hpath
  obtain ⟨t, hexec, ht⟩ := exec_of_idle hidle hi hpos
  obtain ⟨-, -, -, hbase, -⟩ := hidle
  obtain ⟨u, hu, hdone⟩ := finished_since rfl rfl hbase hi ht hpath
  have hhalted : u.halted = true := congrArg Run.halted hdone.run
  refine ⟨t, hexec, fun k p hk => ?_, u, hu, hhalted, congrArg Run.fault hdone.run, congrArg Run.retiredCount hdone.run,
    congrArg Run.cycleCount hdone.run, congrArg Run.haltSeq hdone.run, hdone.alone.count, hdone.alone.travellers_eq,
    fun e he => ?_, hdone.robHead, hdone.alone.robTail rfl⟩
  · by_cases hp : p = .committed
    · subst hp
      have hlast : k = 5 + lat s.cfg i.op := by
        have hcases := aloneTimeline_cases (lat_pos s.cfg i.op) hk
        simp only [reduceCtorEq, and_false, false_or, exists_false, and_true] at hcases
        exact hcases
      exact ⟨u, hlast ▸ hu, hdone.committed hbase, iff_of_true hhalted rfl⟩
    · obtain ⟨v, hv, hphase, hrunning⟩ := underway_since rfl rfl hbase hi ht hpath hk hp
      exact ⟨v, hv, hphase, iff_of_false (by rw [hrunning]; decide) hp⟩
  · obtain ⟨r, hr, rfl⟩ := List.mem_iff_getElem.mp he
    have hnone := hdone.alone.ratAt rfl r
    rwa [State.ratAt, List.getD_eq_getElem _ _ hr] at hnone

end

end Sys2Proof.Machine
end
